-- ==== Sys2Proof/Word.lean ====
section
/-! DEFINITION. The words of the block whose width the spec fixes: bytes and 4-bit fields, unsigned (rule R10). The words that rule R7 parametrises, slot indices and coordinates, are in Sys2Proof/Config.lean. -/

namespace Sys2Proof

/-- A byte `b[7:0]` (rule R10). -/
abbrev Byte := BitVec 8

/-- A 4-bit field: half of a packed byte (rules R62, R63). -/
abbrev Nibble := BitVec 4

end Sys2Proof
end

