-- ==== Sys2Proof/Config.lean ====
section
/-! DEFINITION. The implementation parameters of rule R7, each one a field of `Config`, the block's own values, and the words whose size they fix. -/

namespace Sys2Proof

/-- Which half of a packed byte the first-listed field takes (rules R62, R63). -/
inductive NibbleOrder where
  | lowFirst
  | highFirst
  deriving DecidableEq, Repr

/-- `FINGER_LAYOUT`: the place of each byte relative to the start of a record of `n` bytes (rules R7, R61). -/
structure FingerLayout (n : Nat) where
  hi : Fin n
  xLo : Fin n
  yLo : Fin n
  fingerChecksum : Fin n
  reserved : Fin n
  deriving DecidableEq, Repr

/-- The parameter table of rule R7. -/
structure Config where
  nSlots : Nat
  frameBytes : Nat
  fingerBytes : Nat
  pidTouch : Byte
  sentinel : Byte
  coordBits : Nat
  /-- Advertised only: the block never compares a coordinate with it (rule R86). -/
  coordMaxDoc : Nat
  fingerLayout : FingerLayout fingerBytes
  nibbleOrder : NibbleOrder
  /-- Used by the host contract only (rule R132), in units of `timeUnit`. -/
  pollInterval : Nat
  timeUnit : Nat
  busTimeout : Nat
  /-- The consistency condition of rule R8. -/
  sizes : frameBytes = 1 + nSlots * fingerBytes + 1 + 1
  deriving DecidableEq, Repr

/-- `TIME_UNIT`: OPEN in rule R7 (decision D23); an uninterpreted number (DESIGN CHOICE, notes/assumptions/13.md). -/
opaque Config.openTimeUnit : Nat

/-- `BUS_TIMEOUT`: OPEN in rule R7 (decision D23); an uninterpreted number (DESIGN CHOICE, notes/assumptions/13.md). -/
opaque Config.openBusTimeout : Nat

/-- The values the block has (rule R7); the layout and the nibble order are the spec's own decisions (UNVERIFIED,
notes/assumptions/23.md). -/
abbrev Config.block : Config where
  nSlots := 10
  frameBytes := 53
  fingerBytes := 5
  pidTouch := 0x5A#8
  sentinel := 0xFF#8
  coordBits := 12
  coordMaxDoc := 2047
  fingerLayout := { hi := 0, xLo := 1, yLo := 2, fingerChecksum := 3, reserved := 4 }
  nibbleOrder := .lowFirst
  pollInterval := 20
  timeUnit := Config.openTimeUnit
  busTimeout := Config.openBusTimeout
  sizes := rfl

/-- A coordinate, `COORD_BITS` wide (rules R7, R20, R65). -/
abbrev Coord := BitVec Config.block.coordBits

/-- A hardware slot index `0 .. N_SLOTS-1` (rules R7, R20). -/
abbrev SlotIndex := Fin Config.block.nSlots

/-- One entry for each hardware slot, in slot-index order (rules R7, R20). -/
abbrev PerSlot (α : Type) := Vector α Config.block.nSlots

end Sys2Proof
end

