-- ==== Sys2Proof/Syntax.lean ====
section
/-! DEFINITION. The syntax: the decoded TouchFrame record (rule R82), the frame classes (rule R66), and `Instr`, one constructor per row of spec/opcode_table.json. -/

namespace Sys2Proof

/-- One FingerRecord as decoded (rule R82). The unnamed fifth byte is no field (rules R61, R94);
the derived `x` and `y` are `Machine.xCoord` and `Machine.yCoord` of these fields (rules R84, R85). -/
structure FingerRecord where
  yHi : Nibble
  xHi : Nibble
  xLo : Byte
  yLo : Byte
  fingerChecksum : Byte
  deriving DecidableEq, Repr

/-- The decoded frame of `n` records (rule R82): no validity verdict, no other field. -/
structure TouchFrameOf (n : Nat) where
  packetId : Byte
  fingers : Vector FingerRecord n
  keyMask : Nibble
  proximityMask : Nibble
  frameChecksum : Byte
  deriving DecidableEq, Repr

/-- The decoded frame of this block, one record for each of its `N_SLOTS` slots (rules R7, R82). -/
abbrev TouchFrame := TouchFrameOf Config.block.nSlots

/-- The three classes of a frame of the right size (rule R66). -/
inductive FrameClass where
  | touch
  | touchEmpty
  | nodata
  deriving DecidableEq, Repr

/-- What the opcode table's rows stand for. The first three are the commands of the command port (rule R70);
the frame-class and finger-class rows are the stages a FRAME runs (rules R66, R67, R80; DESIGN CHOICE, notes/assumptions/3.md). -/
inductive Instr where
  /-- FRAME, with the frame buffer it samples, of any length (rules R27, R100). -/
  | frame (buf : List Byte)
  /-- RESET (rule R108). -/
  | reset
  /-- RESERVED_CMD: any other command word (rules R71, R122). -/
  | reservedCmd (cmd : Byte)
  /-- FRAMECLASS_TOUCH: a frame of class `TOUCH` (rule R66). -/
  | frameclassTouch (f : TouchFrame)
  /-- FRAMECLASS_TOUCH_EMPTY: a frame of class `TOUCH_EMPTY` (rule R66). -/
  | frameclassTouchEmpty (f : TouchFrame)
  /-- FRAMECLASS_NODATA: a frame of class `NODATA` (rule R66). -/
  | frameclassNodata (f : TouchFrame)
  /-- FINGER_ACTIVE: the record of slot `i` in a `TOUCH` frame, checksum not the sentinel (rule R67). -/
  | fingerActive (i : SlotIndex) (r : FingerRecord)
  /-- FINGER_EMPTY: the record of slot `i` in a `TOUCH` frame, checksum the sentinel (rule R67). -/
  | fingerEmpty (i : SlotIndex) (r : FingerRecord)
  deriving DecidableEq, Repr

end Sys2Proof
end

