-- ==== Sys2Proof/WellFormed.lean ====
section
/-! DEFINITION. Which terms of `Instr` are instructions of the opcode table: each constructor's row condition (rules R66, R67, R71). -/

namespace Sys2Proof

/-- The value is the reserved 0xFF, "no data here" (rules R13, R92). -/
def isSentinel (b : Byte) : Bool := b == Config.block.sentinel

/-- The packet id denotes a touch-data frame (rule R66). -/
def isTouchPid (b : Byte) : Bool := b == Config.block.pidTouch

/-- The command word of FRAME (rule R70). -/
def cmdFrame : Byte := 0x01#8

/-- The command word of RESET (rule R70). -/
def cmdReset : Byte := 0x02#8

/-- The instruction meets its row's condition. A FRAME takes any buffer: a wrong length is its fault (rule R80),
not another instruction. -/
def Instr.wellFormed : Instr → Bool
  | .frame _ => true
  | .reset => true
  | .reservedCmd c => c != cmdFrame && c != cmdReset
  | .frameclassTouch f => isTouchPid f.packetId && !isSentinel f.frameChecksum
  | .frameclassTouchEmpty f => isTouchPid f.packetId && isSentinel f.frameChecksum
  | .frameclassNodata f => !isTouchPid f.packetId
  | .fingerActive _ r => !isSentinel r.fingerChecksum
  | .fingerEmpty _ r => isSentinel r.fingerChecksum

end Sys2Proof
end

