-- ==== Sys2Proof/Decode.lean ====
section
/-! DEFINITION. Decoding and encoding in the three formats of the opcode table: the command word (rules R70 to R72), the frame (rules R60 to R66, R81) and the finger record (rules R61, R62, R67). Sizes and offsets are those of a `Config` (rules R7, R8): the block's frame has 53 bytes, its record 5. -/

namespace Sys2Proof

/-! ### Bit fields -/

/-- `b[3:0]`. -/
def lowNibble (b : Byte) : Nibble := b.extractLsb' 0 4

/-- `b[7:4]`. -/
def highNibble (b : Byte) : Nibble := b.extractLsb' 4 4

/-- The first-listed field of a packed byte (rules R62, R63). -/
def firstField : NibbleOrder → Byte → Nibble
  | .lowFirst, b => lowNibble b
  | .highFirst, b => highNibble b

/-- The second-listed field of a packed byte (rules R62, R63). -/
def secondField : NibbleOrder → Byte → Nibble
  | .lowFirst, b => highNibble b
  | .highFirst, b => lowNibble b

/-- `(high << 4) | low` as a byte (rule R75). -/
def joinNibbles (high low : Nibble) : Byte := (high.setWidth 8 <<< 4) ||| low.setWidth 8

/-- The packed byte holding both fields. -/
def packFields : NibbleOrder → (first second : Nibble) → Byte
  | .lowFirst, first, second => joinNibbles second first
  | .highFirst, first, second => joinNibbles first second

/-! ### The frame buffer of the right size -/

/-- A frame buffer that passed the size check: every offset `0 .. FRAME_BYTES-1` is readable and no other is (rules R40, R47). -/
abbrev Frame (cfg : Config) := Vector Byte cfg.frameBytes

/-- The offset of byte `k` of finger record `i` (rules R60, R61, R64). -/
def recordOffset (cfg : Config) (i k : Nat) : Nat := 1 + cfg.fingerBytes * i + k

/-- The offset of the packed mask byte, after the last record (rules R60, R63). -/
def maskOffset (cfg : Config) : Nat := recordOffset cfg cfg.nSlots 0

/-- The offset of `frame_checksum`, the last byte (rules R60, R64). -/
def checksumOffset (cfg : Config) : Nat := maskOffset cfg + 1

theorem checksumOffset_lt (cfg : Config) : checksumOffset cfg < cfg.frameBytes := by
  have h := cfg.sizes
  rw [Nat.mul_comm] at h
  simp only [checksumOffset, maskOffset, recordOffset]
  omega

theorem maskOffset_lt (cfg : Config) : maskOffset cfg < cfg.frameBytes :=
  Nat.lt_of_succ_lt (checksumOffset_lt cfg)

theorem recordOffset_lt (cfg : Config) {i k : Nat} (hi : i < cfg.nSlots) (hk : k < cfg.fingerBytes) :
    recordOffset cfg i k < maskOffset cfg := by
  have h : cfg.fingerBytes * (i + 1) ≤ cfg.fingerBytes * cfg.nSlots := Nat.mul_le_mul_left _ hi
  rw [Nat.mul_succ] at h
  simp only [maskOffset, recordOffset]
  omega

theorem fingerBytes_pos {cfg : Config} {k : Nat} (h0 : k ≠ 0) (h : k < maskOffset cfg) : 0 < cfg.fingerBytes := by
  refine Nat.pos_of_ne_zero fun hz => ?_
  simp only [maskOffset, recordOffset, hz, Nat.zero_mul] at h
  omega

theorem recordOf_lt {cfg : Config} {k : Nat} (h0 : k ≠ 0) (h : k < maskOffset cfg) :
    (k - 1) / cfg.fingerBytes < cfg.nSlots := by
  refine Nat.div_lt_of_lt_mul ?_
  simp only [maskOffset, recordOffset] at h
  omega

/-- SIZECHECK (rule R80): a buffer of another length is refused whole, with its length, before any byte is read. -/
def sizeCheck (cfg : Config) (buf : List Byte) : Except Nat (Frame cfg) :=
  if h : buf.length = cfg.frameBytes then .ok ⟨buf.toArray, by simpa using h⟩ else .error buf.length

/-- The bytes of finger record `i` (rules R60, R64, R83). -/
def frameRecord (cfg : Config) (fr : Frame cfg) (i : Fin cfg.nSlots) : Vector Byte cfg.fingerBytes :=
  Vector.ofFn fun k => fr[recordOffset cfg i k]'(Nat.lt_trans (recordOffset_lt cfg i.isLt k.isLt) (maskOffset_lt cfg))

/-- The field extraction of one record (rules R61, R62, R81). The reserved byte is not read. -/
def decodeFinger (cfg : Config) (rec : Vector Byte cfg.fingerBytes) : FingerRecord where
  yHi := firstField cfg.nibbleOrder rec[cfg.fingerLayout.hi]
  xHi := secondField cfg.nibbleOrder rec[cfg.fingerLayout.hi]
  xLo := rec[cfg.fingerLayout.xLo]
  yLo := rec[cfg.fingerLayout.yLo]
  fingerChecksum := rec[cfg.fingerLayout.fingerChecksum]

/-- DECODE, the bit-field extractor (rule R81). -/
def decodeFrame (cfg : Config) (fr : Frame cfg) : TouchFrameOf cfg.nSlots where
  packetId := fr[0]'(Nat.zero_lt_of_lt (maskOffset_lt cfg))
  fingers := Vector.ofFn fun i => decodeFinger cfg (frameRecord cfg fr i)
  keyMask := firstField cfg.nibbleOrder (fr[maskOffset cfg]'(maskOffset_lt cfg))
  proximityMask := secondField cfg.nibbleOrder (fr[maskOffset cfg]'(maskOffset_lt cfg))
  frameChecksum := fr[checksumOffset cfg]'(checksumOffset_lt cfg)

/-! ### The decode table -/

/-- FRAME-CLASS: first by packet id, then by frame checksum (rules R66, R91). -/
def frameClass (f : TouchFrame) : FrameClass :=
  if !isTouchPid f.packetId then .nodata
  else if isSentinel f.frameChecksum then .touchEmpty
  else .touch

/-- The frame-class row of a decoded frame (rule R66). -/
def frameRow (f : TouchFrame) : Instr :=
  match frameClass f with
  | .touch => .frameclassTouch f
  | .touchEmpty => .frameclassTouchEmpty f
  | .nodata => .frameclassNodata f

/-- The finger-class row of the record of slot `i` (rule R67). -/
def fingerRow (i : SlotIndex) (r : FingerRecord) : Instr :=
  if isSentinel r.fingerChecksum then .fingerEmpty i r else .fingerActive i r

/-- The command word, compared whole, with the buffer on the port (rules R70 to R72). Only FRAME takes the buffer. -/
def decodeCommand (cmd : Byte) (buf : List Byte) : Instr :=
  if cmd = cmdFrame then .frame buf
  else if cmd = cmdReset then .reset
  else .reservedCmd cmd

/-- The opcode table's "format" column. A finger record does not hold its slot index: its place in the frame gives it
(rule R83). -/
inductive Format where
  | cmd8
  | frame53
  | finger5 (slot : SlotIndex)
  deriving DecidableEq, Repr

/-- Why some bytes are no instruction of a format. -/
inductive DecodeError where
  /-- cmd8: no command word at all. -/
  | noCommandWord
  /-- frame53: the length is not `FRAME_BYTES`, 53 (rules R56, R80). -/
  | frameLength (len : Nat)
  /-- finger5: the length is not `FINGER_BYTES`, 5 (rule R61). -/
  | fingerLength (len : Nat)
  deriving DecidableEq, Repr

/-- Decoding, total on any bytes. In format cmd8 the bytes are the command word and then the frame buffer. -/
def decode : Format → List Byte → Except DecodeError Instr
  | .cmd8, [] => .error .noCommandWord
  | .cmd8, cmd :: buf => .ok (decodeCommand cmd buf)
  | .frame53, bytes =>
    match sizeCheck Config.block bytes with
    | .error len => .error (.frameLength len)
    | .ok fr => .ok (frameRow (decodeFrame Config.block fr))
  | .finger5 i, bytes =>
    if h : bytes.length = Config.block.fingerBytes then
      .ok (fingerRow i (decodeFinger Config.block ⟨bytes.toArray, by simpa using h⟩))
    else .error (.fingerLength bytes.length)

/-! ### The encoder -/

/-- The bytes of a record. The reserved byte is written 0x00, as the frame builder writes it (rule R75;
DESIGN CHOICE, notes/assumptions/19.md). -/
def encodeFinger (cfg : Config) (r : FingerRecord) : Vector Byte cfg.fingerBytes :=
  Vector.ofFn fun k =>
    if k = cfg.fingerLayout.hi then packFields cfg.nibbleOrder r.yHi r.xHi
    else if k = cfg.fingerLayout.xLo then r.xLo
    else if k = cfg.fingerLayout.yLo then r.yLo
    else if k = cfg.fingerLayout.fingerChecksum then r.fingerChecksum
    else 0x00#8

/-- The byte at offset `k` of the frame (rule R60). -/
def encodeFrameByte (cfg : Config) (f : TouchFrameOf cfg.nSlots) (k : Nat) : Byte :=
  if h0 : k = 0 then f.packetId
  else if h : k < maskOffset cfg then
    (encodeFinger cfg (f.fingers[(k - 1) / cfg.fingerBytes]'(recordOf_lt h0 h)))[(k - 1) % cfg.fingerBytes]'(
      Nat.mod_lt _ (fingerBytes_pos h0 h))
  else if k = maskOffset cfg then packFields cfg.nibbleOrder f.keyMask f.proximityMask
  else f.frameChecksum

/-- The bytes of a frame (rule R60). -/
def encodeFrame (cfg : Config) (f : TouchFrameOf cfg.nSlots) : Frame cfg :=
  Vector.ofFn fun k => encodeFrameByte cfg f k

/-- The format an instruction is encoded in. -/
def Instr.format : Instr → Format
  | .frame _ => .cmd8
  | .reset => .cmd8
  | .reservedCmd _ => .cmd8
  | .frameclassTouch _ => .frame53
  | .frameclassTouchEmpty _ => .frame53
  | .frameclassNodata _ => .frame53
  | .fingerActive i _ => .finger5 i
  | .fingerEmpty i _ => .finger5 i

/-- The bytes of an instruction in its format (rules R60, R61, R70). -/
def encode : Instr → List Byte
  | .frame buf => cmdFrame :: buf
  | .reset => [cmdReset]
  | .reservedCmd c => [c]
  | .frameclassTouch f => (encodeFrame Config.block f).toList
  | .frameclassTouchEmpty f => (encodeFrame Config.block f).toList
  | .frameclassNodata f => (encodeFrame Config.block f).toList
  | .fingerActive _ r => (encodeFinger Config.block r).toList
  | .fingerEmpty _ r => (encodeFinger Config.block r).toList

/-! ### The frame builder (rules R75, R76) -/

/-- A listed slot `i: (x, y, c)` of the frame builder (rule R75). -/
structure BuilderFinger where
  slot : SlotIndex
  x : Coord
  y : Coord
  c : Byte
  deriving DecidableEq, Repr

/-- The bytes the builder gives a listed slot, in the order rule R75 writes them, or 0xFF as many times (rule R75). -/
def builderRecord (fingers : List BuilderFinger) (i : SlotIndex) : List Byte :=
  match fingers.find? (fun b => b.slot == i) with
  | some b => [joinNibbles (b.x.extractLsb' 8 4) (b.y.extractLsb' 8 4), b.x.extractLsb' 0 8, b.y.extractLsb' 0 8, b.c, 0x00#8]
  | none => List.replicate Config.block.fingerBytes 0xFF#8

/-- `F(pid, fchk, km, pm, {i: (x, y, c), ...})` (rule R75). -/
def buildFrame (pid fchk : Byte) (km pm : Nibble) (fingers : List BuilderFinger) : List Byte :=
  pid :: ((List.finRange Config.block.nSlots).flatMap (builderRecord fingers) ++ [joinNibbles pm km, fchk])

/-- The frame of the pseudo-instruction `NODATA` (rule R76). -/
def nodataFrame : List Byte := buildFrame 0x00#8 0xFF#8 0 0 []

/-- The frame of the pseudo-instruction `LIFT` (rule R76). -/
def liftFrame : List Byte := buildFrame 0x5A#8 0xFF#8 0 0 []

/-! ### The opcode table's words -/

/-- The format whose row an opcode-table word belongs to, by the low byte each row matches: a row with a fixed match
before the catch-all of priority 99 (DESIGN CHOICE, notes/assumptions/2.md). -/
def tableFormat (w : Nat) : Format :=
  if w % 256 = 0x5A then .frame53
  else if w % 256 = 0xFF then .finger5 0
  else .cmd8

/-- The `n` bytes of a number, the least significant first. -/
def bytesOfNat : Nat → Nat → List Byte
  | 0, _ => []
  | n + 1, w => BitVec.ofNat 8 w :: bytesOfNat n (w / 256)

/-- The longest instruction, in bytes: a FRAME's command word and its buffer. -/
def longestInstr : Nat := 1 + Config.block.frameBytes

/-- The bytes a table word stands for in its format, zeros above it: the command word and a buffer of `FRAME_BYTES`; the
frame from packet_id on; or a record whose finger_checksum is the word's low byte (the byte the row matches). -/
def tableBytes (w : Nat) : List Byte :=
  match tableFormat w with
  | .cmd8 => bytesOfNat longestInstr w
  | .frame53 => bytesOfNat Config.block.frameBytes w
  | .finger5 _ =>
    (encodeFinger Config.block { yHi := 0, xHi := 0, xLo := 0, yLo := 0, fingerChecksum := BitVec.ofNat 8 w }).toList

/-- The instruction the decoder reads from the table word `w` of `nbits` bits: whole bytes, no more of them than the
longest instruction has. -/
def decodeTableWord (nbits w : Nat) : Option Instr :=
  if nbits = 0 ∨ nbits % 8 ≠ 0 ∨ 8 * longestInstr < nbits then none
  else
    match decode (tableFormat w) (tableBytes w) with
    | .ok i => some i
    | .error _ => none

end Sys2Proof
end

