-- ==== Sys2Proof/Machine/State.lean ====
section
/-! DEFINITION. Everything the spec gives the machine, as plain data: the block (rules R20 to R33), its ports (rules R27, R30) and the host contract that drives it (rules R130 to R139); the state at reset (rules R150 to R152). -/

namespace Sys2Proof.Machine

/-- A position (x, y), 12 bits each (rule R20). -/
structure Pos where
  x : Coord
  y : Coord
  deriving DecidableEq, Repr

/-- One entry of the contact-slot file (rule R20); `active` and `pos` agree by the invariant of rule R21. -/
structure Slot where
  active : Bool
  pos : Option Pos
  deriving DecidableEq, Repr

/-- The kind of a SlotEvent; a Released event carries no coordinates (rules R30, R31). -/
inductive EventKind where
  | touching (pos : Pos)
  | released
  deriving DecidableEq, Repr

/-- `{slot_index, Touching(x, y) | Released}` (rules R13, R30). -/
structure SlotEvent where
  slotIndex : SlotIndex
  kind : EventKind
  deriving DecidableEq, Repr

/-- The per-slot state machine's transitions (rule R104). -/
inductive Transition where
  | add
  | update
  | release
  | idle
  deriving DecidableEq, Repr

/-- The record a FRAME that does not fault emits (rule R30). -/
structure Report where
  events : PerSlot SlotEvent
  anyTouching : Bool
  streamContinue : Bool
  frameClass : FrameClass
  keyMask : Nibble
  proximityMask : Nibble
  transition : PerSlot Transition
  deriving DecidableEq, Repr

/-- The block's own faults, with the info each records (rule R120). Both are outcomes of a command that completes:
the machine goes on (rule R126). -/
inductive CmdFault where
  | sizeMismatch (len : Nat)
  | illegalCommand (cmd : Byte)
  deriving DecidableEq, Repr

/-- How a command ended (rules R27, R120). -/
inductive CmdOutcome where
  | ok
  | fault (f : CmdFault)
  deriving DecidableEq, Repr

/-- Who issued the command on the port: the host's worker inside a read cycle (rule R132), or the host directly (rule R27). -/
inductive Issuer where
  | host
  | worker
  deriving DecidableEq, Repr

/-- A command word on the command port (rule R27). -/
structure Issue where
  cmd : Byte
  issuer : Issuer
  deriving DecidableEq, Repr

/-- The frame buffer as memory: (offset, byte) pairs in rising order of offset. An offset that is not listed holds no
byte: it lies outside `0 .. len-1` (rule R40; DESIGN CHOICE, notes/assumptions/4.md). -/
abbrev Memory := List Host.Cell

/-- The host's PollState (rule R130). -/
inductive PollState where
  | idle
  | scheduled
  | active
  deriving DecidableEq, Repr

/-- What the environment can do to the machine (rules R27, R74, R131, R132, R138, R139). -/
inductive HostEvent where
  /-- The host issues these command words with this buffer, none waiting for another: one is the rule, more overlap (rule R155).
  It may come while a read cycle is executing (DESIGN CHOICE, notes/assumptions/26.md). -/
  | issue (cmds : List Byte) (buf : List Byte)
  /-- `IRQ`: an interrupt is delivered (rule R131). -/
  | irq
  /-- `WAIT t`: time advances by `t` units, a whole number of them (DESIGN CHOICE, notes/assumptions/25.md). -/
  | wait (t : Nat)
  /-- The worker looks for a due read and starts its cycle (rule R132). -/
  | workerStart
  /-- `READ ok`: the transport read of the executing cycle returns these bytes. -/
  | readOk (bytes : List Byte)
  /-- `READ fail`: the transport read of the executing cycle returns an error. -/
  | readFail
  /-- `START`: the Lifecycle call start(). -/
  | start
  /-- `STOP`: the Lifecycle call stop(). -/
  | stop
  deriving DecidableEq, Repr

/-- The machine. -/
structure State where
  /-- The contact-slot file (rule R20). -/
  slots : PerSlot Slot
  /-- STATUS: [0] ERR_SIZE, [1] ERR_CMD, [7:2] reserved (rule R24); software reads it through `readStatus`. -/
  status : BitVec 8
  /-- The last command's outcome (rule R27); none before any command. -/
  outcome : Option CmdOutcome
  /-- The report port: the last command's report, if it gave one (rules R27, R30). -/
  report : Option Report
  /-- The command words issued and not completed, oldest first (rules R27, R155). -/
  port : List Issue
  /-- The frame buffer the host supplies (rules R27, R40). -/
  buf : Memory
  /-- PollState (rule R130). -/
  pollState : PollState
  /-- A read has been requested and has not started (rule R130). -/
  pending : Bool
  /-- When the pending read is due (rule R130); a number that never wraps (DESIGN CHOICE, notes/assumptions/25.md: R141
  leaves the Timer's width and resolution open). -/
  dueTime : Nat
  /-- A read cycle is running (rule R130). -/
  executing : Bool
  /-- start() has been called (rule R139). -/
  startCalled : Bool
  /-- stop() has been called, or the host stopped as if it had been (rules R137, R139). -/
  stopCalled : Bool
  /-- The Timer's time in time units (rules R131, R132, R138); a number that never wraps (DESIGN CHOICE,
  notes/assumptions/25.md: R141 leaves the Timer's width and resolution open). -/
  now : Nat
  /-- The reports the EventSink has received, oldest first (rules R51, R138). -/
  sink : List Report
  /-- How many transport failures the logging collaborator has received (rules R133, R138). -/
  transportFailures : Nat
  /-- The fault handed to the integration boundary, if the run is a faulted run (rule R137). -/
  propagated : Option CmdFault
  /-- The model's own: the environment's events still to come, oldest first (DESIGN CHOICE, notes/assumptions/5.md). -/
  events : List HostEvent
  deriving DecidableEq, Repr

/-- Nothing stops this machine with a fault: the block's two faults are outcomes of a command, after which it accepts
the next one (rules R120, R126), and every byte a FRAME reads is there (rules R47, R80). No constructor is needed, so
no step can end in one: safe. -/
inductive Fault where
  deriving DecidableEq, Repr

/-- Why the model gives a step no meaning. -/
inductive Refusal where
  /-- An instruction with no meaning yet, by its mnemonic. Raised by an arm of `exec`; safe. No arm raises it now. -/
  | notModelled (mnemonic : String)
  /-- More than one command is on the port: an overlapping issue has no meaning (rule R155). Raised by `step`; safe. -/
  | overlappingIssue
  /-- A second start() (rule R139). Raised by the host event `start`; safe. -/
  | secondStart
  /-- A second stop() (rule R139). Raised by the host event `stop`; safe. -/
  | secondStop
  /-- The host issues a command after stop() has returned, which it must not (rules R139, R159). Raised by the host
  event `issue`; safe. -/
  | commandAfterStop
  /-- A transport read returns although no read cycle is executing: no read was called (rules R132, R138). Raised by the
  host events `readOk` and `readFail`; safe. -/
  | noReadExecuting
  deriving DecidableEq, Repr

/-- `{active: false, pos: none}` (rule R150). -/
def Slot.empty : Slot := { active := false, pos := none }

/-- The machine right after power-on reset (rules R150 to R152), with no command issued, nothing received by the
collaborators and time at 0 (DESIGN CHOICE, notes/assumptions/7.md). -/
def State.reset : State where
  slots := Vector.replicate Config.block.nSlots Slot.empty
  status := 0x00#8
  outcome := none
  report := none
  port := []
  buf := []
  pollState := .idle
  pending := false
  dueTime := 0
  executing := false
  startCalled := false
  stopCalled := false
  now := 0
  sink := []
  transportFailures := 0
  propagated := none
  events := []

end Sys2Proof.Machine
end

