-- ==== Sys2Proof/Machine/Operands.lean ====
section
/-! DEFINITION. The operand forms: the coordinates assembled from a finger record (rules R65, R84, R85). The frame buffer's own operand form, its size check and its records, is decoding (Sys2Proof/Decode.lean). -/

namespace Sys2Proof.Machine

/-- `zext_12(lo) | (zext_12(hi) << 8)` (rule R65), 12 being `COORD_BITS` (rule R7). -/
def assembleCoord (hi : Nibble) (lo : Byte) : Coord := 
  lo.setWidth Config.block.coordBits ||| (hi.setWidth Config.block.coordBits <<< 8)

/-- X-COORD (rule R84). -/
def xCoord (r : FingerRecord) : Coord := assembleCoord r.xHi r.xLo

/-- Y-COORD (rule R85). -/
def yCoord (r : FingerRecord) : Coord := assembleCoord r.yHi r.yLo

/-- The record's (x, y), neither clamped nor range-checked (rule R86). -/
def recordPos (r : FingerRecord) : Pos := { x := xCoord r, y := yCoord r }

end Sys2Proof.Machine
end

