-- ==== Sys2Proof/Machine/Flags.lean ====
section
/-! DEFINITION. The predicates and derived outputs of a frame: the checksum validator (rules R88 to R91), stream-continue (rule R95), the transition table (rule R104) and the any-touching flag (rule R106). The block stores none of them between commands (rule R32). -/

namespace Sys2Proof.Machine

/-- FRAME-VALID (rule R88). -/
def frameOk (f : TouchFrame) : Bool := isTouchPid f.packetId && !isSentinel f.frameChecksum

/-- SLOT-VALID: `touching[i]` (rule R89). The coordinates do not enter it. -/
def touching (f : TouchFrame) (i : SlotIndex) : Bool := frameOk f && !isSentinel f.fingers[i].fingerChecksum

/-- STREAM-CONTINUE: packet identity alone, whatever the checksum (rule R95). -/
def streamContinue (f : TouchFrame) : Bool := isTouchPid f.packetId

/-- TRANSITION: from the slot's activity before the frame and `touching[i]` (rule R104). -/
def transitionOf : (was t : Bool) → Transition
  | false, true => .add
  | true, true => .update
  | true, false => .release
  | false, false => .idle

/-- The event says Touching. -/
def EventKind.isTouching : EventKind → Bool
  | .touching _ => true
  | .released => false

/-- `any_touching`: the OR over the frame's ten slots (rule R106). -/
def anyTouchingOf (events : PerSlot SlotEvent) : Bool :=
  (List.finRange Config.block.nSlots).any fun i => events[i].kind.isTouching

end Sys2Proof.Machine
end

