-- ==== Sys2Proof/Machine/Ops.lean ====
section
/-! DEFINITION. The named operations: the frame buffer (rules R40, R45), STATUS (rule R24), raising a fault (rule R123), emitting a report (rules R11, R30), and the tracker's update of one slot and of all ten (rules R100 to R106). -/

namespace Sys2Proof.Machine

/-! ### The frame buffer -/

/-- The buffer as the host supplies it: byte `k` at offset `k` (rules R27, R40). -/
def Memory.ofBytes (bytes : List Byte) : Memory := bytes.zipIdx.map fun (b, k) => (k, b)

/-- `buf[k]`; an offset outside `0 .. len-1` holds no byte (rules R11, R40). -/
def Memory.read (m : Memory) (k : Nat) : Option Byte := m.lookup k

/-- The snapshot FRAME takes at issue: all bytes, lowest offset first (rule R45). Its length is `len`. -/
def Memory.bytes (m : Memory) : List Byte := m.map Prod.snd

/-- The canonical form: exactly the offsets `0 .. len-1`, in rising order (rule R40). -/
def Memory.wf (m : Memory) : Bool := m.map Prod.fst == List.range m.length

/-! ### STATUS -/

/-- Bit [0], ERR_SIZE (rule R24). -/
def errSizeBit : BitVec 8 := 0x01#8

/-- Bit [1], ERR_CMD (rule R24). -/
def errCmdBit : BitVec 8 := 0x02#8

/-- What the host reads: bits [7:2] always read 0 (rule R24; DESIGN CHOICE, notes/assumptions/18.md). -/
def readStatus (s : State) : BitVec 8 := s.status &&& (errSizeBit ||| errCmdBit)

/-! ### Faults

Raising a fault is the block's whole exception mechanism: nothing is saved, no mode changes, there is no handler
(rule R125), and no return operation exists (rule R126); DEDUCED, notes/assumptions/24.md, that both faults are next
states. The ports hold what a command produced until the next one completes (DEDUCED, notes/assumptions/17.md). -/

/-- The fault's numeric code (rule R120). -/
def CmdFault.code : CmdFault → Nat
  | .sizeMismatch _ => 1
  | .illegalCommand _ => 2

/-- The STATUS bit of the fault's code (rules R120, R123). -/
def CmdFault.statusBit : CmdFault → BitVec 8
  | .sizeMismatch _ => errSizeBit
  | .illegalCommand _ => errCmdBit

/-- `raise Fault(code, info)`: the STATUS bit and the outcome, and nothing else (rule R123). The command gives no
report (rule R27). -/
def raise (f : CmdFault) (s : State) : State :=
  { s with status := s.status ||| f.statusBit, outcome := some (.fault f), report := none }

/-- A command that ran to completion without a report (rule R120). -/
def completeSilent (s : State) : State := { s with outcome := some .ok, report := none }

/-- `emit(report)` at the completion of a FRAME: the report port and the EventSink get it (rules R11, R30, R138). -/
def emit (r : Report) (s : State) : State :=
  { s with outcome := some .ok, report := some r, sink := s.sink ++ [r] }

/-! ### The contact tracker -/

/-- The slot a contact leaves: active at its position, or inactive with none (rules R21, R102). -/
def Slot.ofContact : Option Pos → Slot
  | some p => { active := true, pos := some p }
  | none => Slot.empty

/-- The event a contact gives (rule R103). -/
def EventKind.ofContact : Option Pos → EventKind
  | some p => .touching p
  | none => .released

/-- The contact a record gives: its position where the slot is touching, nothing otherwise (rules R89, R102). -/
def contactOf (t : Bool) (r : FingerRecord) : Option Pos := if t then some (recordPos r) else none

/-- The slot file after a frame with these contacts (rule R102). -/
def trackedSlots (contacts : PerSlot (Option Pos)) : PerSlot Slot :=
  Vector.ofFn fun i => Slot.ofContact contacts[i]

/-- The ten events, in slot-index order (rules R101, R103). -/
def trackedEvents (contacts : PerSlot (Option Pos)) : PerSlot SlotEvent :=
  Vector.ofFn fun i => { slotIndex := i, kind := EventKind.ofContact contacts[i] }

/-- The ten transitions (rule R104). -/
def trackedTransitions (slots : PerSlot Slot) (contacts : PerSlot (Option Pos)) : PerSlot Transition :=
  Vector.ofFn fun i => transitionOf slots[i].active contacts[i].isSome

/-- The report of a frame with these contacts (rules R30, R100). -/
def frameReport (f : TouchFrame) (cls : FrameClass) (continues : Bool) (slots : PerSlot Slot)
    (contacts : PerSlot (Option Pos)) : Report where
  events := trackedEvents contacts
  anyTouching := anyTouchingOf (trackedEvents contacts)
  streamContinue := continues
  frameClass := cls
  keyMask := f.keyMask
  proximityMask := f.proximityMask
  transition := trackedTransitions slots contacts

/-- The tracker's update for a whole frame: every slot, then the one report (rule R100). -/
def trackFrame (f : TouchFrame) (cls : FrameClass) (continues : Bool) (contacts : PerSlot (Option Pos))
    (s : State) : State :=
  emit (frameReport f cls continues s.slots contacts) { s with slots := trackedSlots contacts }

/-- The report under construction with entry `i` filled in (the loop body of rule R100). -/
def Report.setEntry (i : SlotIndex) (kind : EventKind) (tr : Transition) (r : Report) : Report :=
  { r with
    events := r.events.set i { slotIndex := i, kind := kind }
    anyTouching := anyTouchingOf (r.events.set i { slotIndex := i, kind := kind })
    transition := r.transition.set i tr }

/-- The loop body of rule R100 for one slot: the slot, and its entry of the report under construction if there is one
(DESIGN CHOICE, notes/assumptions/3.md). -/
def trackSlot (i : SlotIndex) (contact : Option Pos) (s : State) : State :=
  { s with
    slots := s.slots.set i (Slot.ofContact contact)
    report := s.report.map (Report.setEntry i (EventKind.ofContact contact)
      (transitionOf s.slots[i].active contact.isSome)) }

/-- The report of a `TOUCH` frame before the loop of rule R100 has visited any slot. -/
def blankReport (f : TouchFrame) : Report where
  events := Vector.ofFn fun i => { slotIndex := i, kind := .released }
  anyTouching := false
  streamContinue := true
  frameClass := .touch
  keyMask := f.keyMask
  proximityMask := f.proximityMask
  transition := Vector.replicate Config.block.nSlots .idle

end Sys2Proof.Machine
end

