-- ==== Sys2Proof/Machine/Commands.lean ====
section
/-! DEFINITION. The commands of the command port: FRAME (rule R100), RESET (rule R108) and the reserved words (rule R122). -/

namespace Sys2Proof.Machine

/-- FRAME on a buffer of the right size: DECODE, then the tracker on `touching[0..9]` (rules R81, R100). -/
def runFrame (f : TouchFrame) (s : State) : State :=
  trackFrame f (frameClass f) (streamContinue f)
    (Vector.ofFn fun i => contactOf (touching f i) f.fingers[i]) s

/-- FRAME (rule R100): the size check comes first, and its failure is a fault with no other effect (rules R80, R121). -/
def execFrame (buf : List Byte) (s : State) : Host.Outcome State Fault Refusal :=
  match sizeCheck Config.block buf with
  | .error len => .next (raise (.sizeMismatch len) s)
  | .ok fr => .next (runFrame (decodeFrame Config.block fr) s)

/-- RESET (rule R108): the initial state of the slots and of STATUS, silently. -/
def execReset (s : State) : Host.Outcome State Fault Refusal :=
  .next (completeSilent { s with slots := Vector.replicate Config.block.nSlots Slot.empty, status := 0x00#8 })

/-- A reserved command word raises IllegalCommand (rules R71, R122). -/
def execReservedCmd (cmd : Byte) (s : State) : Host.Outcome State Fault Refusal :=
  .next (raise (.illegalCommand cmd) s)

end Sys2Proof.Machine
end

