-- ==== Sys2Proof/Machine/FingerClasses.lean ====
section
/-! DEFINITION. The finger-class rows of the decode table (rule R67): the loop body of FRAME for one record of a TOUCH frame (rules R100, R102 to R104). -/

namespace Sys2Proof.Machine

/-- FINGER_ACTIVE: the slot is Touching at the record's (x, y) (rule R67). -/
def execFingerActive (i : SlotIndex) (r : FingerRecord) (s : State) : Host.Outcome State Fault Refusal :=
  .next (trackSlot i (some (recordPos r)) s)

/-- FINGER_EMPTY: the slot is Released; the record's coordinates reach nothing (rules R67, R94). -/
def execFingerEmpty (i : SlotIndex) (_r : FingerRecord) (s : State) : Host.Outcome State Fault Refusal :=
  .next (trackSlot i none s)

end Sys2Proof.Machine
end

