-- ==== Sys2Proof/Machine/FrameClasses.lean ====
section
/-! DEFINITION. The frame-class rows of the decode table (rule R66): what the block does with a 53-byte frame of each class. FRAME on such a frame does exactly this (rules R66, R100). -/

namespace Sys2Proof.Machine

/-- FRAMECLASS_TOUCH: the slots per finger record, stream_continue true (rules R66, R67). -/
def execFrameclassTouch (f : TouchFrame) (s : State) : Host.Outcome State Fault Refusal :=
  .next (trackFrame f .touch true
    (Vector.ofFn fun i => contactOf (!isSentinel f.fingers[i].fingerChecksum) f.fingers[i]) s)

/-- FRAMECLASS_TOUCH_EMPTY: all slots Released, stream_continue true (rules R66, R90). -/
def execFrameclassTouchEmpty (f : TouchFrame) (s : State) : Host.Outcome State Fault Refusal :=
  .next (trackFrame f .touchEmpty true (Vector.replicate Config.block.nSlots none) s)

/-- FRAMECLASS_NODATA: all slots Released, stream_continue false (rules R66, R90). -/
def execFrameclassNodata (f : TouchFrame) (s : State) : Host.Outcome State Fault Refusal :=
  .next (trackFrame f .nodata false (Vector.replicate Config.block.nSlots none) s)

end Sys2Proof.Machine
end

