-- ==== Sys2Proof/Machine/Dispatch.lean ====
section
/-! DEFINITION. The one dispatch: each constructor of Instr to its meaning. -/

namespace Sys2Proof.Machine

def exec (i : Instr) (s : State) : Host.Outcome State Fault Refusal :=
  match i with
  | .frame buf => Sys2Proof.Machine.execFrame buf s
  | .reset => Sys2Proof.Machine.execReset s
  | .reservedCmd cmd => Sys2Proof.Machine.execReservedCmd cmd s
  | .frameclassTouch f => Sys2Proof.Machine.execFrameclassTouch f s
  | .frameclassTouchEmpty f => Sys2Proof.Machine.execFrameclassTouchEmpty f s
  | .frameclassNodata f => Sys2Proof.Machine.execFrameclassNodata f s
  | .fingerActive slot r => Sys2Proof.Machine.execFingerActive slot r s
  | .fingerEmpty slot r => Sys2Proof.Machine.execFingerEmpty slot r s

end Sys2Proof.Machine
end

