-- ==== Sys2Proof/Machine/Environment.lean ====
section
/-! DEFINITION. The host contract that drives the block (rules R130 to R139): PollScheduler, AcquisitionLoop, Transport, InterruptSource, Timer and Lifecycle. No operation here writes a slot or STATUS (rule R52). -/

namespace Sys2Proof.Machine

/-- The host is armed for interrupts: between start() and stop() (rule R139); a start() after stop() arms nothing
(DEDUCED, notes/assumptions/20.md). -/
def armed (s : State) : Bool := s.startCalled && !s.stopCalled

/-- stop() has returned: it has been called and no read cycle is executing any more (rule R139 (c)). -/
def stopReturned (s : State) : Bool := s.stopCalled && !s.executing

/-- An interrupt (rule R131): while armed it makes a zero-delay read pending, unless one is pending already. -/
def interrupt (s : State) : State :=
  if armed s && !s.pending then { s with pending := true, dueTime := s.now, pollState := .scheduled } else s

/-- `request(d)` of rule R132, coalesced (rule R134). After stop() no new read is requested (rule R139 (a)). -/
def requestRead (d : Nat) (s : State) : State :=
  if !s.stopCalled && !s.pending then { s with pending := true, dueTime := s.now + d, pollState := .active } else s

/-- No further read is requested: Idle, unless an interrupt made a read pending meanwhile (rules R132, R133, R136). -/
def settle (s : State) : State := if s.pending then s else { s with pollState := .idle }

/-- The worker starts the pending read's cycle once it is due; cycles never overlap (rules R132, R136). PollState stays as it
is (DEDUCED, notes/assumptions/12.md). -/
def startCycle (s : State) : State :=
  if s.pending && decide (s.dueTime ≤ s.now) && !s.executing then { s with pending := false, executing := true } else s

/-- stop(): disarm, cancel the pending read (rule R139 (a), (b)); that PollState
is then Idle is DEDUCED (notes/assumptions/8.md). Joining an executing cycle is `stopReturned`. -/
def stopHost (s : State) : State := { s with stopCalled := true, pending := false, pollState := .idle }

/-- The end of a read cycle whose FRAME has completed (rule R132): request the next read, or none; a SizeMismatch goes
to the integration boundary and stops the host (rule R137; DEDUCED, notes/assumptions/9.md). -/
def completeCycle (s : State) : State :=
  match s.outcome, s.report with
  | some (.fault f), _ => { stopHost s with propagated := some f, executing := false }
  | _, some r =>
    { (if r.streamContinue then requestRead Config.block.pollInterval s else settle s) with executing := false }
  | _, none => { settle s with executing := false }

/-- The end of a read cycle whose transport read failed: no command, no event, no retry (rule R133). -/
def failCycle (s : State) : State :=
  { settle s with executing := false, transportFailures := s.transportFailures + 1 }

/-- These command words are on the port with this buffer (rule R27). -/
def present (cmds : List Issue) (buf : List Byte) (s : State) : State :=
  { s with port := cmds, buf := Memory.ofBytes buf }

/-- What an event of the environment does (rules R27, R74, R131 to R139; DESIGN CHOICE, notes/assumptions/10.md,
11.md, 21.md, 22.md). A direct command is accepted while a worker's read cycle is executing too: rule R155 speaks of
overlapping commands only (DESIGN CHOICE, notes/assumptions/26.md). -/
def hostEvent (e : HostEvent) (s : State) : Host.Outcome State Fault Refusal :=
  match e with
  | .issue cmds buf =>
    if stopReturned s then .refused .commandAfterStop
    else .next (present (cmds.map fun c => { cmd := c, issuer := .host }) buf s)
  | .irq => .next (interrupt s)
  | .wait t => .next { s with now := s.now + t }
  | .workerStart => .next (startCycle s)
  | .readOk bytes =>
    if s.executing then .next (present [{ cmd := cmdFrame, issuer := .worker }] bytes s)
    else .refused .noReadExecuting
  | .readFail => if s.executing then .next (failCycle s) else .refused .noReadExecuting
  | .start => if s.startCalled then .refused .secondStart else .next { s with startCalled := true }
  | .stop => if s.stopCalled then .refused .secondStop else .next (stopHost s)

/-- What follows a completed command: the worker's read cycle ends with it (rule R132); a direct command has nothing to
follow (DEDUCED, notes/assumptions/15.md). -/
def afterCommand (who : Issuer) (o : Host.Outcome State Fault Refusal) : Host.Outcome State Fault Refusal :=
  match o with
  | .next s => .next (match who with | .worker => completeCycle s | .host => s)
  | .fault f => .fault f
  | .refused r => .refused r

/-- The instruction on the port: the command word with the snapshot of the buffer (rules R45, R70). -/
def fetch (c : Issue) (s : State) : Instr := decodeCommand c.cmd (Memory.bytes s.buf)

/-! ### Script lines (rule R73) -/

/-- The script line `FRAME b0 b1 ...`. -/
def scriptFrame (bytes : List Byte) : HostEvent := .issue [cmdFrame] bytes

/-- The script line `RESET`. -/
def scriptReset : HostEvent := .issue [cmdReset] []

/-- The script line `.cmd 0xNN`: the raw command word with an empty buffer. -/
def scriptCmd (c : Byte) : HostEvent := .issue [c] []

/-! ### Where an opcode-table word is placed (DESIGN CHOICE, notes/assumptions/2.md) -/

/-- The command word that runs a table word of this format: the word itself, or FRAME for a frame or a record. -/
def tableCommand (w : Nat) : Byte :=
  match tableFormat w with
  | .cmd8 => BitVec.ofNat 8 w
  | .frame53 => cmdFrame
  | .finger5 _ => cmdFrame

/-- The buffer that goes with it: the bytes above the command word; the frame; or a `TOUCH` frame whose record 0 is the
word's record and whose other bytes are zero. -/
def tableBuffer (w : Nat) : List Byte :=
  match tableFormat w with
  | .cmd8 => (tableBytes w).drop 1
  | .frame53 => tableBytes w
  | .finger5 _ => Config.block.pidTouch :: (tableBytes w ++ List.replicate (Config.block.frameBytes - 1 - Config.block.fingerBytes) 0x00#8)

end Sys2Proof.Machine
end

