-- ==== Sys2Proof/Machine/Step.lean ====
section
/-! DEFINITION. One step: the command on the port as one atomic action (rule R9), or else the environment's next event, or else nothing: between commands the block holds its state (rule R145). -/

namespace Sys2Proof.Machine

/-- One step. A command on the port goes first, so nothing comes between its issue and its completion (rules R9, R51);
more than one on the port is an overlapping issue (rule R155; DESIGN CHOICE, notes/assumptions/1.md, 5.md, 6.md). -/
def step (s : State) : Host.Outcome State Fault Refusal :=
  match s.port with
  | [] =>
    match s.events with
    | [] => .next s
    | e :: es => hostEvent e { s with events := es }
  | [c] => afterCommand c.issuer (exec (fetch c s) { s with port := [] })
  | _ :: _ :: _ => .refused .overlappingIssue

/-- The state with the opcode-table word `w` on the command port (a frame or a record inside a FRAME), so that the very
next step runs it. -/
def State.withFetchWord (s : State) (_nbits w : Nat) : State :=
  present [{ cmd := tableCommand w, issuer := .host }] (tableBuffer w) s

end Sys2Proof.Machine
end

