-- ==== Sys2Proof/Safety.lean ====
section
/-! DEFINITION. What claims about the machine are stated in: the invariant of every point between commands, runs of rows, and a frame's content read straight from its byte offsets (rule R64). -/

namespace Sys2Proof.Machine

/-! ### The invariant -/

/-- A slot is active exactly when it holds a position (rule R21). -/
def Slot.consistent (sl : Slot) : Prop := sl.active = sl.pos.isSome

/-- The report is an exact snapshot of the slot file (rules R103, R106, R110). -/
structure Snapshot (r : Report) (slots : PerSlot Slot) : Prop where
  indices : ∀ i : SlotIndex, r.events[i].slotIndex = i
  kinds : ∀ i : SlotIndex, r.events[i].kind = EventKind.ofContact slots[i].pos
  any : r.anyTouching = true ↔ ∃ i : SlotIndex, slots[i].active = true

/-- What the block keeps between commands. -/
structure BlockInv (s : State) : Prop where
  /-- Rule R21. -/
  slots : ∀ i : SlotIndex, s.slots[i].consistent
  /-- STATUS[7:2] is 0 (rule R24). -/
  status : s.status &&& 0xFC#8 = 0#8
  /-- A report comes from a command that did not fault (rule R27). -/
  reported : s.report.isSome = true → s.outcome = some .ok
  /-- The report port agrees with the slot file (rule R110) ... -/
  snapshot : ∀ r, s.report = some r → Snapshot r s.slots
  /-- ... and is the last report the EventSink has received (rule R138). -/
  delivered : ∀ r, s.report = some r → s.sink.getLast? = some r
  /-- The frame buffer is in canonical form (rule R40). -/
  buffer : Memory.wf s.buf = true

/-- What the host contract keeps (rules R130 to R139). -/
structure HostInv (s : State) : Prop where
  /-- A pending read shows in PollState (rule R130). -/
  pendingShown : s.pending = true → s.pollState ≠ .idle
  /-- With no read pending and none running, PollState is Idle (rules R130, R132). -/
  idleShown : s.pending = false → s.executing = false → s.pollState = .idle
  /-- A read pending in Scheduled has zero delay: it is due (rules R130, R131). -/
  scheduledDue : s.pending = true → s.pollState = .scheduled → s.dueTime ≤ s.now
  /-- A read pending in Active is due within one poll interval (rules R130, R132). -/
  activeDue : s.pending = true → s.pollState = .active → s.dueTime ≤ s.now + Config.block.pollInterval
  /-- No read before start() (rules R139, R152). -/
  started : s.pending = true ∨ s.executing = true → s.startCalled = true
  /-- After stop() no read is pending (rule R139). -/
  stopped : s.stopCalled = true → s.pending = false ∧ s.pollState = .idle
  /-- The worker's command is on the port only inside a read cycle (rule R132). -/
  workerCommand : ∀ c ∈ s.port, c.issuer = .worker → s.executing = true

/-- The machine's invariant. -/
structure Inv (s : State) : Prop where
  block : BlockInv s
  host : HostInv s

/-! ### Runs of rows -/

/-- The instructions one after another, from one state. -/
def runRows : List Instr → State → Host.Outcome State Fault Refusal
  | [], s => .next s
  | i :: is, s =>
    match exec i s with
    | .next t => runRows is t
    | .fault f => .fault f
    | .refused r => .refused r

/-- The finger rows of a frame, in slot-index order (rules R67, R101). -/
def fingerRows (f : TouchFrame) : List Instr := (List.finRange Config.block.nSlots).map fun i => fingerRow i f.fingers[i]

/-! ### A frame read by byte offsets (rule R64) -/

/-- `buf[k]` of a buffer that has offset `k` (it is used with `k < buf.length` only). -/
def byteAt (buf : List Byte) (k : Nat) : Byte := (buf[k]?).getD 0#8

/-- `touching[i]` from the three bytes that decide it (rules R64, R88, R89). -/
def touchingAt (buf : List Byte) (i : Nat) : Bool :=
  byteAt buf 0 == 0x5A#8 && byteAt buf 52 != 0xFF#8 && byteAt buf (4 + 5 * i) != 0xFF#8

/-- `x_i` as a number: `x_lo` plus 256 times the high nibble of the record's first byte (rules R62, R64, R65). -/
def xAt (buf : List Byte) (i : Nat) : Nat :=
  (byteAt buf (2 + 5 * i)).toNat + 256 * ((byteAt buf (1 + 5 * i)).toNat / 16)

/-- `y_i` as a number: `y_lo` plus 256 times the low nibble of the record's first byte (rules R62, R64, R65). -/
def yAt (buf : List Byte) (i : Nat) : Nat :=
  (byteAt buf (3 + 5 * i)).toNat + 256 * ((byteAt buf (1 + 5 * i)).toNat % 16)

/-- The position of record `i` (rules R64, R65). -/
def posAt (buf : List Byte) (i : Nat) : Pos :=
  { x := BitVec.ofNat 12 (xAt buf i), y := BitVec.ofNat 12 (yAt buf i) }

/-- The slot after a frame, from its bytes (rule R102). -/
def slotAt (buf : List Byte) (i : Nat) : Slot :=
  if touchingAt buf i then { active := true, pos := some (posAt buf i) } else { active := false, pos := none }

/-- The event of a frame, from its bytes (rule R103). -/
def kindAt (buf : List Byte) (i : Nat) : EventKind :=
  if touchingAt buf i then .touching (posAt buf i) else .released

/-! ### What two states or two buffers share -/

/-- The host contract's state, the ports' inputs and the frame buffer are the same: all that no instruction writes. -/
structure SameSurroundings (s t : State) : Prop where
  port : t.port = s.port
  bytes : ∀ a, Memory.read t.buf a = Memory.read s.buf a
  len : t.buf.length = s.buf.length
  pollState : t.pollState = s.pollState
  pending : t.pending = s.pending
  dueTime : t.dueTime = s.dueTime
  executing : t.executing = s.executing
  startCalled : t.startCalled = s.startCalled
  stopCalled : t.stopCalled = s.stopCalled
  now : t.now = s.now
  transportFailures : t.transportFailures = s.transportFailures
  propagated : t.propagated = s.propagated
  events : t.events = s.events

/-- The block itself and what the EventSink has received are the same. -/
structure SameBlock (s t : State) : Prop where
  slots : t.slots = s.slots
  status : t.status = s.status
  outcome : t.outcome = s.outcome
  report : t.report = s.report
  sink : t.sink = s.sink

/-- The buffers differ at most in reserved bytes and in the coordinates of records whose slot is not touching (rule R94). -/
structure SameForOutputs (a b : List Byte) : Prop where
  packetId : byteAt a 0 = byteAt b 0
  masks : byteAt a 51 = byteAt b 51
  frameChecksum : byteAt a 52 = byteAt b 52
  fingerChecksum : ∀ i : SlotIndex, byteAt a (4 + 5 * i.val) = byteAt b (4 + 5 * i.val)
  hi : ∀ i : SlotIndex, touchingAt a i = true → byteAt a (1 + 5 * i.val) = byteAt b (1 + 5 * i.val)
  xLo : ∀ i : SlotIndex, touchingAt a i = true → byteAt a (2 + 5 * i.val) = byteAt b (2 + 5 * i.val)
  yLo : ∀ i : SlotIndex, touchingAt a i = true → byteAt a (3 + 5 * i.val) = byteAt b (3 + 5 * i.val)

/-- The buffers differ at most in the checksums, and no checksum is the sentinel in one of them only (rule R92). -/
structure SameUpToChecksums (a b : List Byte) : Prop where
  frameChecksum : byteAt a 52 = 0xFF#8 ↔ byteAt b 52 = 0xFF#8
  fingerChecksum : ∀ i : SlotIndex, byteAt a (4 + 5 * i.val) = 0xFF#8 ↔ byteAt b (4 + 5 * i.val) = 0xFF#8
  others : ∀ k, k < 52 → (∀ i : SlotIndex, k ≠ 4 + 5 * i.val) → byteAt a k = byteAt b k

end Sys2Proof.Machine
end

