-- ==== Sys2Proof/Certificates/Slice0/Obligations.lean ====
section
/-! DEFINITION. The statements for the provers, from the numbered rules of spec/, in the order of the rules' files. -/

section

open Sys2Proof Sys2Proof.Machine

/-! ### Encoding and decoding -/

/-- Rule R40: the frame buffer holds byte `k` at offset `k`, for the offsets `0 .. len-1` and no other. -/
def Obligations.BufferReads : Prop :=
  ∀ (bytes : List Byte) (k : Nat), Memory.read (Memory.ofBytes bytes) k = bytes[k]?

/-- Rules R62, R63: which nibble holds which field, under both orders, and the order the spec takes. -/
def Obligations.NibbleOrders : Prop :=
  Config.block.nibbleOrder = .lowFirst ∧
  ∀ (cfg : Config) (rec : Vector Byte cfg.fingerBytes) (fr : Frame cfg),
    (cfg.nibbleOrder = .lowFirst →
      (decodeFinger cfg rec).yHi.toNat = rec[cfg.fingerLayout.hi].toNat % 16 ∧
      (decodeFinger cfg rec).xHi.toNat = rec[cfg.fingerLayout.hi].toNat / 16 ∧
      (decodeFrame cfg fr).keyMask.toNat = (fr[maskOffset cfg]'(maskOffset_lt cfg)).toNat % 16 ∧
      (decodeFrame cfg fr).proximityMask.toNat = (fr[maskOffset cfg]'(maskOffset_lt cfg)).toNat / 16) ∧
    (cfg.nibbleOrder = .highFirst →
      (decodeFinger cfg rec).yHi.toNat = rec[cfg.fingerLayout.hi].toNat / 16 ∧
      (decodeFinger cfg rec).xHi.toNat = rec[cfg.fingerLayout.hi].toNat % 16 ∧
      (decodeFrame cfg fr).keyMask.toNat = (fr[maskOffset cfg]'(maskOffset_lt cfg)).toNat / 16 ∧
      (decodeFrame cfg fr).proximityMask.toNat = (fr[maskOffset cfg]'(maskOffset_lt cfg)).toNat % 16)

/-- Rules R60, R61, R81 (the spec derives the absolute offsets as R64): every field of the decoded frame, by its absolute offset. -/
def Obligations.FieldOffsets : Prop :=
  ∀ (buf : List Byte), buf.length = 53 → ∃ fr : Frame Config.block, sizeCheck Config.block buf = .ok fr ∧
    (decodeFrame Config.block fr).packetId = byteAt buf 0 ∧
    (decodeFrame Config.block fr).frameChecksum = byteAt buf 52 ∧
    (decodeFrame Config.block fr).keyMask.toNat = (byteAt buf 51).toNat % 16 ∧
    (decodeFrame Config.block fr).proximityMask.toNat = (byteAt buf 51).toNat / 16 ∧
    ∀ i : SlotIndex,
      ((decodeFrame Config.block fr).fingers[i]).yHi.toNat = (byteAt buf (1 + 5 * i.val)).toNat % 16 ∧
      ((decodeFrame Config.block fr).fingers[i]).xHi.toNat = (byteAt buf (1 + 5 * i.val)).toNat / 16 ∧
      ((decodeFrame Config.block fr).fingers[i]).xLo = byteAt buf (2 + 5 * i.val) ∧
      ((decodeFrame Config.block fr).fingers[i]).yLo = byteAt buf (3 + 5 * i.val) ∧
      ((decodeFrame Config.block fr).fingers[i]).fingerChecksum = byteAt buf (4 + 5 * i.val) ∧
      (xCoord (decodeFrame Config.block fr).fingers[i]).toNat = xAt buf i ∧
      (yCoord (decodeFrame Config.block fr).fingers[i]).toNat = yAt buf i

/-- Words written out from the encoding tables (rules R60 to R64, R70, R71; vectors V16, V18, V37, V38) decode to what
they stand for: a sanity check. -/
def Obligations.DecodeWords : Prop :=
  decode .cmd8 [0b00000001#8, 0x5A#8] = .ok (.frame [0x5A#8]) ∧
  decode .cmd8 [0b00000010#8] = .ok .reset ∧
  decode .cmd8 [0x00#8] = .ok (.reservedCmd 0x00#8) ∧
  decode .cmd8 [0xFF#8] = .ok (.reservedCmd 0xFF#8) ∧
  decode .cmd8 [] = .error .noCommandWord ∧
  decode (.finger5 4) [0x37#8, 0x21#8, 0x65#8, 0x01#8, 0x00#8] =
    .ok (.fingerActive 4 { yHi := 7#4, xHi := 3#4, xLo := 0x21#8, yLo := 0x65#8, fingerChecksum := 0x01#8 }) ∧
  decode (.finger5 0) [0x12#8, 0x34#8, 0x56#8, 0xFF#8, 0x00#8] =
    .ok (.fingerEmpty 0 { yHi := 2#4, xHi := 1#4, xLo := 0x34#8, yLo := 0x56#8, fingerChecksum := 0xFF#8 }) ∧
  decode .frame53 (List.replicate 52 0x5A#8) = .error (.frameLength 52)

/-- Decoding an encoded well-formed instruction, in its format, gives it back, with every operand at every value. -/
def Obligations.DecodeEncode : Prop :=
  ∀ i : Instr, i.wellFormed = true → decode i.format (encode i) = .ok i

/-- Encoding a decoded frame gives its bytes back, but for the reserved byte of each record, which the decoder ignores
(rules R60, R61, R64) and the encoder writes 0x00 (the model's choice, notes/assumptions/19.md). -/
def Obligations.EncodeDecodedFrame : Prop :=
  ∀ buf : List Byte, buf.length = 53 → ∃ i, decode .frame53 buf = .ok i ∧ (encode i).length = 53 ∧
    ∀ k, k < 53 → byteAt (encode i) k = if 5 ≤ k ∧ k ≤ 50 ∧ k % 5 = 0 then 0x00#8 else byteAt buf k

/-- Rules R7, R60, R61: a record and a whole frame survive encoding and decoding under every configuration: every
`N_SLOTS`, every `FINGER_BYTES`, every `FINGER_LAYOUT` whose four named fields stand at different places, and both nibble
orders. -/
def Obligations.AnyLayoutRoundTrip : Prop :=
  ∀ cfg : Config,
    [cfg.fingerLayout.hi, cfg.fingerLayout.xLo, cfg.fingerLayout.yLo, cfg.fingerLayout.fingerChecksum].Nodup →
    (∀ r : FingerRecord, decodeFinger cfg (encodeFinger cfg r) = r) ∧
    ∀ f : TouchFrameOf cfg.nSlots, decodeFrame cfg (encodeFrame cfg f) = f

/-- Rules R66, R88: a 53-byte frame decodes to a well-formed row of exactly one class, and `frame_ok` holds exactly in
the class TOUCH (the consistency the spec derives as R91). -/
def Obligations.OneFrameClass : Prop :=
  ∀ buf : List Byte, buf.length = 53 → ∃ f : TouchFrame,
    (byteAt buf 0 = 0x5A#8 ∧ byteAt buf 52 ≠ 0xFF#8 ∧ decode .frame53 buf = .ok (.frameclassTouch f) ∧
      (Instr.frameclassTouch f).wellFormed = true ∧ frameOk f = true ∧ (Instr.frameclassTouchEmpty f).wellFormed = false ∧
      (Instr.frameclassNodata f).wellFormed = false) ∨
    (byteAt buf 0 = 0x5A#8 ∧ byteAt buf 52 = 0xFF#8 ∧ decode .frame53 buf = .ok (.frameclassTouchEmpty f) ∧
      (Instr.frameclassTouch f).wellFormed = false ∧ frameOk f = false ∧ (Instr.frameclassTouchEmpty f).wellFormed = true ∧
      (Instr.frameclassNodata f).wellFormed = false) ∨
    (byteAt buf 0 ≠ 0x5A#8 ∧ decode .frame53 buf = .ok (.frameclassNodata f) ∧
      (Instr.frameclassTouch f).wellFormed = false ∧ frameOk f = false ∧ (Instr.frameclassTouchEmpty f).wellFormed = false ∧
      (Instr.frameclassNodata f).wellFormed = true)

/-- Rule R75: the frame builder's 53 bytes, and that their coordinates read back as the listed ones. -/
def Obligations.FrameBuilder : Prop :=
  ∀ (pid fchk : Byte) (km pm : Nibble) (fs : List BuilderFinger),
    (buildFrame pid fchk km pm fs).length = 53 ∧
    byteAt (buildFrame pid fchk km pm fs) 0 = pid ∧
    (byteAt (buildFrame pid fchk km pm fs) 51).toNat = 16 * pm.toNat + km.toNat ∧
    byteAt (buildFrame pid fchk km pm fs) 52 = fchk ∧
    ∀ i : SlotIndex,
      match fs.find? (fun b => b.slot == i) with
      | some b =>
        (byteAt (buildFrame pid fchk km pm fs) (1 + 5 * i.val)).toNat = 16 * (b.x.toNat / 256) + b.y.toNat / 256 ∧
        (byteAt (buildFrame pid fchk km pm fs) (2 + 5 * i.val)).toNat = b.x.toNat % 256 ∧
        (byteAt (buildFrame pid fchk km pm fs) (3 + 5 * i.val)).toNat = b.y.toNat % 256 ∧
        byteAt (buildFrame pid fchk km pm fs) (4 + 5 * i.val) = b.c ∧
        byteAt (buildFrame pid fchk km pm fs) (5 + 5 * i.val) = 0x00#8 ∧
        posAt (buildFrame pid fchk km pm fs) i.val = { x := b.x, y := b.y }
      | none => ∀ k, k < 5 → byteAt (buildFrame pid fchk km pm fs) (1 + 5 * i.val + k) = 0xFF#8

/-- Rules R7, R8, R60, R61, R80, R81: the block's sizes; and under every configuration a frame has
`1 + N_SLOTS * FINGER_BYTES + 1 + 1` bytes, a buffer of that length and of no other passes the size check, and every field
stands where the sizes and `FINGER_LAYOUT` put it. -/
def Obligations.FrameFromParameters : Prop :=
  (Config.block.nSlots = 10 ∧ Config.block.frameBytes = 53 ∧ Config.block.fingerBytes = 5 ∧
    Config.block.coordBits = 12) ∧
  ∀ cfg : Config, cfg.frameBytes = 1 + cfg.nSlots * cfg.fingerBytes + 1 + 1 ∧
    (∀ buf : List Byte, buf.length ≠ cfg.frameBytes → sizeCheck cfg buf = .error buf.length) ∧
    ∀ buf : List Byte, buf.length = cfg.frameBytes → ∃ fr : Frame cfg, sizeCheck cfg buf = .ok fr ∧
      (decodeFrame cfg fr).packetId = byteAt buf 0 ∧
      (decodeFrame cfg fr).frameChecksum = byteAt buf (2 + cfg.nSlots * cfg.fingerBytes) ∧
      joinNibbles (decodeFrame cfg fr).proximityMask (decodeFrame cfg fr).keyMask =
        (match cfg.nibbleOrder with
        | .lowFirst => byteAt buf (1 + cfg.nSlots * cfg.fingerBytes)
        | .highFirst => (byteAt buf (1 + cfg.nSlots * cfg.fingerBytes)).rotateLeft 4) ∧
      ∀ i : Fin cfg.nSlots,
        ((decodeFrame cfg fr).fingers[i]).xLo = byteAt buf (1 + i.val * cfg.fingerBytes + cfg.fingerLayout.xLo.val) ∧
        ((decodeFrame cfg fr).fingers[i]).yLo = byteAt buf (1 + i.val * cfg.fingerBytes + cfg.fingerLayout.yLo.val) ∧
        ((decodeFrame cfg fr).fingers[i]).fingerChecksum =
          byteAt buf (1 + i.val * cfg.fingerBytes + cfg.fingerLayout.fingerChecksum.val) ∧
        joinNibbles ((decodeFrame cfg fr).fingers[i]).xHi ((decodeFrame cfg fr).fingers[i]).yHi =
          match cfg.nibbleOrder with
          | .lowFirst => byteAt buf (1 + i.val * cfg.fingerBytes + cfg.fingerLayout.hi.val)
          | .highFirst => (byteAt buf (1 + i.val * cfg.fingerBytes + cfg.fingerLayout.hi.val)).rotateLeft 4

/-! ### The operands: coordinates -/

/-- Rules R84, R85: each coordinate from its two parts, as a number and as bits. -/
def Obligations.CoordinateFormula : Prop :=
  ∀ r : FingerRecord,
    (xCoord r).toNat = r.xLo.toNat + 256 * r.xHi.toNat ∧
    (xCoord r).extractLsb' 0 8 = r.xLo ∧ (xCoord r).extractLsb' 8 4 = r.xHi ∧
    (yCoord r).toNat = r.yLo.toNat + 256 * r.yHi.toNat ∧
    (yCoord r).extractLsb' 0 8 = r.yLo ∧ (yCoord r).extractLsb' 8 4 = r.yHi

/-- Rule R86: nothing is clamped or range-checked: every 12-bit pair, above the documented maximum too, is what some
53-byte buffer holds for slot `i`, and every buffer that holds it there gives the slot and its event exactly that pair,
from every state. -/
def Obligations.NoClamping : Prop :=
  ∀ (i : SlotIndex) (x y : Coord),
    (∃ buf : List Byte, buf.length = 53 ∧ touchingAt buf i = true ∧ xAt buf i = x.toNat ∧ yAt buf i = y.toNat) ∧
    ∀ (buf : List Byte) (s : State), buf.length = 53 → touchingAt buf i = true → xAt buf i = x.toNat →
      yAt buf i = y.toNat → ∃ t r, exec (.frame buf) s = .next t ∧ t.report = some r ∧
        r.events[i] = { slotIndex := i, kind := .touching { x := x, y := y } } ∧
        t.slots[i] = { active := true, pos := some { x := x, y := y } }

/-! ### FRAME -/

/-- Rule R102: the next state of every slot is the current frame's; the previous slot file affects only the
transitions. -/
def Obligations.FrameSlots : Prop :=
  ∀ (buf : List Byte) (s : State), buf.length = 53 → ∃ t r, exec (.frame buf) s = .next t ∧ t.report = some r ∧
    (∀ i : SlotIndex, t.slots[i] = slotAt buf i) ∧
    ∀ before : PerSlot Slot, ∃ t' r', exec (.frame buf) { s with slots := before } = .next t' ∧
      t'.report = some r' ∧ r = { r' with transition := r.transition } ∧
      t = { t' with report := some r, sink := s.sink ++ [r] }

/-- Rule R103: exactly ten events, one per slot, in index order, whatever the class and the previous slots. -/
def Obligations.FrameEvents : Prop :=
  ∀ (buf : List Byte) (s : State), buf.length = 53 → ∃ t r, exec (.frame buf) s = .next t ∧ t.report = some r ∧
    t.sink = s.sink ++ [r] ∧ r.events.toList.length = 10 ∧
    ∀ i : SlotIndex, r.events[i] = { slotIndex := i, kind := kindAt buf i }

/-- Rule R104: the transition table, with next state and event, row by row. -/
def Obligations.FrameTransitions : Prop :=
  ∀ (buf : List Byte) (s : State), buf.length = 53 → ∃ t r, exec (.frame buf) s = .next t ∧ t.report = some r ∧
    ∀ i : SlotIndex,
      match s.slots[i].active, touchingAt buf i with
      | false, true => r.transition[i] = .add ∧ t.slots[i] = { active := true, pos := some (posAt buf i) } ∧
          r.events[i].kind = .touching (posAt buf i)
      | true, true => r.transition[i] = .update ∧ t.slots[i] = { active := true, pos := some (posAt buf i) } ∧
          r.events[i].kind = .touching (posAt buf i)
      | true, false => r.transition[i] = .release ∧ t.slots[i] = { active := false, pos := none } ∧
          r.events[i].kind = .released
      | false, false => r.transition[i] = .idle ∧ t.slots[i] = { active := false, pos := none } ∧
          r.events[i].kind = .released

/-- Rule R106: any_touching is the OR over the ten slots; equivalently some slot is active after; false for a frame of
the other two classes. -/
def Obligations.FrameAnyTouching : Prop :=
  ∀ (buf : List Byte) (s : State), buf.length = 53 → ∃ t r, exec (.frame buf) s = .next t ∧ t.report = some r ∧
    (r.anyTouching = true ↔ ∃ i : SlotIndex, touchingAt buf i = true) ∧
    (r.anyTouching = true ↔ ∃ i : SlotIndex, t.slots[i].active = true) ∧
    (r.frameClass ≠ .touch → r.anyTouching = false)

/-- Rules R66, R95: the class, stream_continue and the slots a frame's first and last byte decide. -/
def Obligations.FrameClassAndStream : Prop :=
  ∀ (buf : List Byte) (s : State), buf.length = 53 → ∃ t r, exec (.frame buf) s = .next t ∧ t.report = some r ∧
    (r.streamContinue = true ↔ byteAt buf 0 = 0x5A#8) ∧
    (byteAt buf 0 = 0x5A#8 → byteAt buf 52 ≠ 0xFF#8 → r.frameClass = .touch ∧ ∀ i : SlotIndex,
      (byteAt buf (4 + 5 * i.val) ≠ 0xFF#8 → t.slots[i] = { active := true, pos := some (posAt buf i) }) ∧
      (byteAt buf (4 + 5 * i.val) = 0xFF#8 → t.slots[i] = { active := false, pos := none })) ∧
    (byteAt buf 0 = 0x5A#8 → byteAt buf 52 = 0xFF#8 → r.frameClass = .touchEmpty ∧
      ∀ i : SlotIndex, t.slots[i] = { active := false, pos := none }) ∧
    (byteAt buf 0 ≠ 0x5A#8 → r.frameClass = .nodata ∧
      ∀ i : SlotIndex, t.slots[i] = { active := false, pos := none })

/-- Rule R87: the masks pass through in every class of frame, and no other output depends on them. -/
def Obligations.MasksPassThrough : Prop :=
  ∀ (a b : List Byte) (s : State), a.length = 53 → b.length = 53 → (∀ k, k < 53 → k ≠ 51 → byteAt a k = byteAt b k) →
    ∃ t u r q, exec (.frame a) s = .next t ∧ exec (.frame b) s = .next u ∧ t.report = some r ∧ u.report = some q ∧
      r.keyMask.toNat = (byteAt a 51).toNat % 16 ∧ r.proximityMask.toNat = (byteAt a 51).toNat / 16 ∧
      q = { r with keyMask := q.keyMask, proximityMask := q.proximityMask } ∧
      u = { t with report := some q, sink := s.sink ++ [q] }

/-- The frame predicate overrides every slot, whatever the finger records hold (from rules R88 and R89; the spec derives it
as R90). -/
def Obligations.GlobalOverride : Prop :=
  ∀ (buf : List Byte) (s : State), buf.length = 53 → (byteAt buf 0 ≠ 0x5A#8 ∨ byteAt buf 52 = 0xFF#8) →
    ∃ t r, exec (.frame buf) s = .next t ∧ t.report = some r ∧ r.anyTouching = false ∧
      ∀ i : SlotIndex, t.slots[i] = { active := false, pos := none } ∧
        r.events[i] = { slotIndex := i, kind := .released }

/-- Rule R94: the reserved bytes and the coordinates of a slot that is not touching reach nothing: the whole outcome of
FRAME is the same, from every state. -/
def Obligations.IgnoredBytes : Prop :=
  ∀ (a b : List Byte) (s : State), a.length = 53 → b.length = 53 → SameForOutputs a b →
    exec (.frame a) s = exec (.frame b) s

/-- Rule R92: a checksum is compared with the sentinel and with nothing else: replacing checksums that are not the
sentinel by others that are not changes nothing. -/
def Obligations.NoChecksumArithmetic : Prop :=
  ∀ (a b : List Byte) (s : State), a.length = 53 → b.length = 53 → SameUpToChecksums a b →
    exec (.frame a) s = exec (.frame b) s

/-- Rules R68, R127: no content of a 53-byte frame is an error. -/
def Obligations.WellSizedNeverFaults : Prop :=
  ∀ (buf : List Byte) (s : State), buf.length = 53 → ∃ t r, exec (.frame buf) s = .next t ∧
    t.outcome = some .ok ∧ t.report = some r ∧ t.status = s.status ∧ t.sink = s.sink ++ [r]

/-- After a non-faulting FRAME the slot file, and all of the report but its transitions, is a function of the
frame's bytes alone (from rules R102, R103 and R93; the spec derives it as its law R109). -/
def Obligations.FrameForgetsThePast : Prop :=
  ∀ (buf : List Byte) (s u : State), buf.length = 53 → ∃ s' u' r q, exec (.frame buf) s = .next s' ∧
    exec (.frame buf) u = .next u' ∧ s'.slots = u'.slots ∧ s'.report = some r ∧ u'.report = some q ∧
    q = { r with transition := q.transition }

/-- The report is an exact snapshot of the slot file (from rules R100 and R103; the spec derives it as its law R110). -/
def Obligations.ReportIsSnapshot : Prop :=
  ∀ (buf : List Byte) (s : State), buf.length = 53 → ∃ t r, exec (.frame buf) s = .next t ∧ t.report = some r ∧
    ∀ i : SlotIndex, t.slots[i].active = touchingAt buf i ∧
      ∀ p : Pos, r.events[i].kind = .touching p ↔ t.slots[i] = { active := true, pos := some p }

/-- No identity across frames: release and then touch is RELEASE and then ADD; touched by both frames is
UPDATE (from rules R102 and R104; the spec derives it as R107). -/
def Obligations.NoIdentityAcrossFrames : Prop :=
  ∀ (a b : List Byte) (s : State), a.length = 53 → b.length = 53 → ∃ t u r q, exec (.frame a) s = .next t ∧
    exec (.frame b) t = .next u ∧ t.report = some r ∧ u.report = some q ∧ ∀ i : SlotIndex,
      (s.slots[i].active = true → touchingAt a i = false → touchingAt b i = true →
        r.transition[i] = .release ∧ q.transition[i] = .add) ∧
      (touchingAt a i = true → touchingAt b i = true → q.transition[i] = .update)

/-- Rules R80, R121: FRAME on a buffer of another length, shorter or longer, raises SizeMismatch with that length and
does nothing else. -/
def Obligations.SizeMismatch : Prop :=
  ∀ (buf : List Byte) (s : State), buf.length ≠ 53 →
    exec (.frame buf) s = .next { s with
      status := s.status ||| 0x01#8
      outcome := some (.fault (.sizeMismatch buf.length))
      report := none }

/-- Rule R76: `LIFT` releases every slot and keeps stream_continue true; `NODATA` is a frame of another packet id, and
releases every slot too. -/
def Obligations.LiftAndNodata : Prop :=
  liftFrame = buildFrame 0x5A#8 0xFF#8 0 0 [] ∧ nodataFrame = buildFrame 0x00#8 0xFF#8 0 0 [] ∧
  byteAt nodataFrame 0 ≠ 0x5A#8 ∧
  ∀ s : State, ∃ t r u q, exec (.frame liftFrame) s = .next t ∧ t.report = some r ∧
    exec (.frame nodataFrame) s = .next u ∧ u.report = some q ∧
    r.streamContinue = true ∧ r.frameClass = .touchEmpty ∧ q.streamContinue = false ∧ q.frameClass = .nodata ∧
    ∀ i : SlotIndex,
      t.slots[i] = { active := false, pos := none } ∧ r.events[i] = { slotIndex := i, kind := .released } ∧
      u.slots[i] = { active := false, pos := none } ∧ q.events[i] = { slotIndex := i, kind := .released }

/-! ### RESET and the reserved words -/

/-- Rule R150: power-on reset and RESET leave the same: no contact, STATUS 0, no report. -/
def Obligations.ResetState : Prop :=
  (∀ i : SlotIndex, State.reset.slots[i] = { active := false, pos := none }) ∧
  readStatus State.reset = 0x00#8 ∧ State.reset.report = none ∧
  ∀ s : State, ∃ t, exec .reset s = .next t ∧ t.slots = State.reset.slots ∧
    readStatus t = readStatus State.reset ∧ t.report = none

/-- Rule R108: RESET clears the slots and STATUS, emits nothing, and ignores the buffer, whatever its length: it is run
here from the command port, where the buffer stays as it is. -/
def Obligations.ResetCommand : Prop :=
  ∀ s : State, s.port = [{ cmd := 0x02#8, issuer := .host }] →
    exec .reset { s with port := [] } = step s ∧
    step s = .next { s with
      port := []
      slots := Vector.replicate 10 { active := false, pos := none }
      status := 0x00#8
      outcome := some .ok
      report := none }

/-- Rules R71, R122: every reserved command word raises IllegalCommand with that word, has no other effect, and does not
read the buffer; as an instruction and from the command port. -/
def Obligations.IllegalCommand : Prop :=
  ∀ (c : Byte) (s : State), c ≠ 0x01#8 → c ≠ 0x02#8 →
    exec (.reservedCmd c) s = .next { s with
      status := s.status ||| 0x02#8
      outcome := some (.fault (.illegalCommand c))
      report := none } ∧
    (s.port = [{ cmd := c, issuer := .host }] → step s = .next { s with
      port := []
      status := s.status ||| 0x02#8
      outcome := some (.fault (.illegalCommand c))
      report := none })

/-- Rule R124: one fault at most, and the command word is checked before the length; RESET never raises SizeMismatch. -/
def Obligations.FaultPrecedence : Prop :=
  ∀ (c : Byte) (s : State), s.port = [{ cmd := c, issuer := .host }] → ∃ t, step s = .next t ∧
    t.outcome = some (
      if c ≠ 0x01#8 ∧ c ≠ 0x02#8 then .fault (.illegalCommand c)
      else if c = 0x01#8 ∧ (Memory.bytes s.buf).length ≠ 53 then .fault (.sizeMismatch (Memory.bytes s.buf).length)
      else .ok)

/-- Rule R123: a command that faults has no effect besides its own STATUS bit: no slot, no report, no other bit. -/
def Obligations.FaultsArePrecise : Prop :=
  ∀ (c : Issue) (s t : State) (f : CmdFault), s.port = [c] → step s = .next t → t.outcome = some (.fault f) →
    t.slots = s.slots ∧ t.report = none ∧ t.sink = s.sink ∧
    t.status = s.status ||| (if f.code = 1 then 0x01#8 else 0x02#8)

/-- Rule R105: RESET, a faulting FRAME and an IllegalCommand take no transition and emit no event. -/
def Obligations.NoEvents : Prop :=
  (∀ s : State, ∃ t, exec .reset s = .next t ∧ t.report = none ∧ t.sink = s.sink ∧
    ∀ i : SlotIndex, t.slots[i] = { active := false, pos := none }) ∧
  (∀ (buf : List Byte) (s : State), buf.length ≠ 53 → ∃ t, exec (.frame buf) s = .next t ∧ t.report = none ∧
    t.sink = s.sink ∧ t.slots = s.slots) ∧
  (∀ (c : Byte) (s : State), ∃ t, exec (.reservedCmd c) s = .next t ∧ t.report = none ∧ t.sink = s.sink ∧
    t.slots = s.slots)

/-! ### The decode table's rows -/

/-- Rules R66, R67: the TOUCH row on a frame: each slot by its record's checksum, one report. That the row is an
instruction is the model's reading (notes/assumptions/3.md). -/
def Obligations.TouchRow : Prop :=
  ∀ (f : TouchFrame) (s : State), ∃ t r, exec (.frameclassTouch f) s = .next t ∧ t.report = some r ∧
    t.sink = s.sink ++ [r] ∧ t.outcome = some .ok ∧ r.frameClass = .touch ∧ r.streamContinue = true ∧
    r.keyMask = f.keyMask ∧ r.proximityMask = f.proximityMask ∧
    (r.anyTouching = true ↔ ∃ i : SlotIndex, f.fingers[i].fingerChecksum ≠ 0xFF#8) ∧
    ∀ i : SlotIndex,
      (f.fingers[i].fingerChecksum ≠ 0xFF#8 →
        t.slots[i] = { active := true, pos := some { x := xCoord f.fingers[i], y := yCoord f.fingers[i] } } ∧
        r.events[i] = { slotIndex := i, kind := .touching { x := xCoord f.fingers[i], y := yCoord f.fingers[i] } } ∧
        r.transition[i] = if s.slots[i].active then .update else .add) ∧
      (f.fingers[i].fingerChecksum = 0xFF#8 →
        t.slots[i] = { active := false, pos := none } ∧ r.events[i] = { slotIndex := i, kind := .released } ∧
        r.transition[i] = if s.slots[i].active then .release else .idle)

/-- Rules R66, R90: the TOUCH_EMPTY and the NODATA row release every slot; stream_continue tells them apart. That the
rows are instructions is the model's reading (notes/assumptions/3.md). -/
def Obligations.ReleasingRows : Prop :=
  ∀ (f : TouchFrame) (s : State), ∃ t r u q,
    exec (.frameclassTouchEmpty f) s = .next t ∧ t.report = some r ∧ t.sink = s.sink ++ [r] ∧
    t.outcome = some .ok ∧ r.frameClass = .touchEmpty ∧ r.streamContinue = true ∧
    exec (.frameclassNodata f) s = .next u ∧ u.report = some q ∧ u.sink = s.sink ++ [q] ∧
    u.outcome = some .ok ∧ q.frameClass = .nodata ∧ q.streamContinue = false ∧
    (r.anyTouching = false ∧ q.anyTouching = false) ∧
    (r.keyMask = f.keyMask ∧ r.proximityMask = f.proximityMask ∧ q.keyMask = f.keyMask ∧
      q.proximityMask = f.proximityMask) ∧
    ∀ i : SlotIndex, t.slots[i] = { active := false, pos := none } ∧ u.slots[i] = t.slots[i] ∧
      r.events[i] = { slotIndex := i, kind := .released } ∧ q.events[i] = r.events[i] ∧
      r.transition[i] = (if s.slots[i].active then .release else .idle) ∧ q.transition[i] = r.transition[i]

/-- FRAME on a 53-byte buffer is its row of the decode table: the buffer decodes to a well-formed row, and running that
row gives the same next state, from every state (rules R66, R91, R100). That the rows are instructions of their own is
the model's reading (notes/assumptions/3.md). -/
def Obligations.FrameRunsItsRow : Prop :=
  ∀ (buf : List Byte) (s : State), buf.length = 53 → ∃ i, decode .frame53 buf = .ok i ∧ i.wellFormed = true ∧
    exec (.frame buf) s = exec i s

/-- Rule R67: FINGER_ACTIVE touches its slot at the record's position. The entry of the report under construction is the
loop body of rule R100 (the model's reading, notes/assumptions/3.md). -/
def Obligations.FingerActive : Prop :=
  ∀ (i : SlotIndex) (r : FingerRecord) (s : State), ∃ t, exec (.fingerActive i r) s = .next t ∧
    t.slots[i] = { active := true, pos := some { x := xCoord r, y := yCoord r } } ∧
    (∀ j : SlotIndex, j ≠ i → t.slots[j] = s.slots[j]) ∧
    t.status = s.status ∧ t.outcome = s.outcome ∧ t.sink = s.sink ∧ (s.report = none → t.report = none) ∧
    ∀ q, s.report = some q → ∃ q', t.report = some q' ∧
      q'.events[i] = { slotIndex := i, kind := .touching { x := xCoord r, y := yCoord r } } ∧
      q'.transition[i] = (if s.slots[i].active then .update else .add) ∧ q'.anyTouching = true ∧
      (∀ j : SlotIndex, j ≠ i → q'.events[j] = q.events[j] ∧ q'.transition[j] = q.transition[j]) ∧
      q'.streamContinue = q.streamContinue ∧ q'.frameClass = q.frameClass ∧ q'.keyMask = q.keyMask ∧
      q'.proximityMask = q.proximityMask

/-- Rule R67: FINGER_EMPTY releases its slot; the record's coordinates reach nothing (rule R94). The entry of the report
under construction is the loop body of rule R100 (the model's reading, notes/assumptions/3.md). -/
def Obligations.FingerEmpty : Prop :=
  ∀ (i : SlotIndex) (r : FingerRecord) (s : State), ∃ t, exec (.fingerEmpty i r) s = .next t ∧
    t.slots[i] = { active := false, pos := none } ∧
    (∀ j : SlotIndex, j ≠ i → t.slots[j] = s.slots[j]) ∧
    t.status = s.status ∧ t.outcome = s.outcome ∧ t.sink = s.sink ∧ (s.report = none → t.report = none) ∧
    ∀ q, s.report = some q → ∃ q', t.report = some q' ∧
      q'.events[i] = { slotIndex := i, kind := .released } ∧
      q'.transition[i] = (if s.slots[i].active then .release else .idle) ∧
      (q'.anyTouching = true ↔ ∃ j : SlotIndex, j ≠ i ∧ q.events[j].kind.isTouching = true) ∧
      (∀ j : SlotIndex, j ≠ i → q'.events[j] = q.events[j] ∧ q'.transition[j] = q.transition[j]) ∧
      q'.streamContinue = q.streamContinue ∧ q'.frameClass = q.frameClass ∧ q'.keyMask = q.keyMask ∧
      q'.proximityMask = q.proximityMask

/-- Rules R100, R101: the ten finger rows in slot-index order, from a blank report, build exactly the slot file and the
report of the TOUCH frame. That the rows are instructions, and the blank report they start from, are the model's reading
(notes/assumptions/3.md). -/
def Obligations.LoopBuildsTheReport : Prop :=
  ∀ (f : TouchFrame) (s : State), ∃ t u, exec (.frameclassTouch f) s = .next t ∧
    runRows (fingerRows f) { s with report := some (blankReport f) } = .next u ∧
    u.slots = t.slots ∧ u.report = t.report

/-! ### Frames of all instructions -/

/-- No instruction writes the frame buffer, the port or the host contract's state (rules R22, R44, R52); STATUS changes
only where a fault or RESET says so (rule R24). -/
def Obligations.InstructionFrame : Prop :=
  ∀ (i : Instr) (s t : State), exec i s = .next t → SameSurroundings s t ∧
    ((∀ buf, i = .frame buf → buf.length = 53) → i ≠ .reset → (∀ c, i ≠ .reservedCmd c) → t.status = s.status)

/-- Rule R52: nothing but a FRAME or RESET command changes the slot file; a FRAME only on 53 bytes. -/
def Obligations.OnlyCommandsWriteSlots : Prop :=
  ∀ s t : State, step s = .next t → t.slots ≠ s.slots → ∃ c, s.port = [c] ∧
    ((c.cmd = 0x01#8 ∧ (Memory.bytes s.buf).length = 53) ∨ c.cmd = 0x02#8)

/-- Rules R24, R126: the host reads ERR_SIZE and ERR_CMD as STATUS holds them and bits [7:2] as 0, so between commands it
reads STATUS whole; and STATUS is sticky: no step but a RESET command clears a bit, no event of the environment writes
it, RESET clears it. That a STATUS whose bits [7:2] hold something else reads 0 there is the model's choice
(notes/assumptions/18.md). -/
def Obligations.StatusSticky : Prop :=
  (∀ s : State, readStatus s &&& 0x03#8 = s.status &&& 0x03#8 ∧ readStatus s &&& 0xFC#8 = 0x00#8 ∧
    (BlockInv s → readStatus s = s.status)) ∧
  ∀ s t : State, step s = .next t →
    ((∀ c, s.port = [c] → c.cmd ≠ 0x02#8) → s.status ||| t.status = t.status) ∧
    (s.port = [] → t.status = s.status) ∧
    (∀ c, s.port = [c] → c.cmd = 0x02#8 → readStatus t = 0x00#8)

/-- Rules R30, R51, R138: the EventSink gets exactly the reports of the FRAMEs that do not fault, one each, in order. -/
def Obligations.SinkGetsEveryReport : Prop :=
  ∀ s t : State, step s = .next t →
    (∀ c, s.port = [c] → c.cmd = 0x01#8 → (Memory.bytes s.buf).length = 53 →
      ∃ r, t.report = some r ∧ t.sink = s.sink ++ [r]) ∧
    ((∀ c, s.port = [c] → c.cmd = 0x01#8 → (Memory.bytes s.buf).length ≠ 53) → t.sink = s.sink)

/-! ### The step -/

/-- A command on the port runs as the instruction its word decodes to, with the snapshot of the buffer (rules R45, R70);
a worker's command is followed by the end of its read cycle (rule R132). That the command and the end of its cycle are
one step is the model's reading of R132 (notes/assumptions/15.md). -/
def Obligations.StepRunsTheCommand : Prop :=
  ∀ (c : Issue) (s : State), s.port = [c] →
    step s = afterCommand c.issuer (exec (decodeCommand c.cmd (Memory.bytes s.buf)) { s with port := [] })

/-- Rule R51: a command the host issues runs in the very next step, on exactly the buffer issued and exactly the state
the earlier commands left. That it does so while a worker's read cycle is executing too, and while stop() waits for that
cycle, is the model's choice (notes/assumptions/26.md). -/
def Obligations.IssueThenRun : Prop :=
  ∀ (c : Byte) (buf : List Byte) (es : List HostEvent) (s : State), s.port = [] → s.events = .issue [c] buf :: es →
    (s.stopCalled = false ∨ s.executing = true) → ∃ t, step s = .next t ∧ SameBlock s t ∧
      step t = exec (decodeCommand c buf) { s with events := es, buf := Memory.ofBytes buf }

/-- Rule R155: an overlapping issue is refused. -/
def Obligations.OverlapRefused : Prop :=
  ∀ (c d : Issue) (cs : List Issue) (s : State), s.port = c :: d :: cs → step s = .refused .overlappingIssue

/-- Rule R145: between commands the block holds its state indefinitely: no step without a command on the port changes the
slots, STATUS, the ports' outputs or what the sink has received, whatever the environment does; and with no event to
come, any number of steps answers the same state. That with neither command nor event a step answers the state it is
given, and that the outcome and report ports hold their values between commands, are the model's choice and reading
(notes/assumptions/1.md, 17.md). -/
def Obligations.IdleForever : Prop :=
  (∀ s t : State, s.port = [] → step s = .next t → SameBlock s t) ∧
  ∀ (k : Nat) (s : State), s.port = [] → s.events = [] → Host.Core.run Sys2Proof.core k s = .next s

/-! ### Invariants -/

/-- The invariant holds at reset (rules R150 to R152; the other reset values are notes/assumptions/7.md). -/
def Obligations.InvAtReset : Prop := Inv State.reset

/-- Every step keeps the invariant (rules R21, R24, R27, R40, R110, R130 to R139), from every state that has it. That the
ports hold their values between commands and that PollState is Idle after stop() are the model's readings
(notes/assumptions/17.md, 8.md), and times that never wrap are its choice (notes/assumptions/25.md). -/
def Obligations.InvKept : Prop := ∀ s t : State, Inv s → step s = .next t → Inv t

/-! ### The host contract -/

/-- Rule R152: the host starts in Idle with no read pending or executing, and not armed: an interrupt then has no
effect. -/
def Obligations.HostAtReset : Prop :=
  State.reset.pollState = .idle ∧ State.reset.pending = false ∧ State.reset.executing = false ∧
  State.reset.startCalled = false ∧ interrupt State.reset = State.reset

/-- Rule R131: an interrupt makes a zero-delay read pending, once: with a read pending it is coalesced (rules R134,
R135), and before start() or after stop() it has no effect (rule R139). It writes nothing else. -/
def Obligations.InterruptRequestsOneRead : Prop :=
  ∀ (es : List HostEvent) (s : State), s.port = [] → s.events = .irq :: es →
    (s.startCalled = true → s.stopCalled = false → s.pending = false → step s = .next { s with
      events := es, pending := true, dueTime := s.now, pollState := .scheduled }) ∧
    (s.startCalled = true → s.stopCalled = false → s.pending = true → step s = .next { s with events := es }) ∧
    (s.startCalled = false ∨ s.stopCalled = true → step s = .next { s with events := es })

/-- Rules R132, R136: the worker starts a pending read that is due, and only then, and never while another cycle is
executing. That the start is an event of its own, which changes nothing when no read can start, is the model's choice
(notes/assumptions/11.md), and that PollState stays as it is at the start is its reading (notes/assumptions/12.md); times that never wrap are its
choice too (notes/assumptions/25.md). -/
def Obligations.WorkerStartsDueRead : Prop :=
  ∀ (es : List HostEvent) (s : State), s.port = [] → s.events = .workerStart :: es →
    (s.pending = true → s.dueTime ≤ s.now → s.executing = false →
      step s = .next { s with events := es, pending := false, executing := true }) ∧
    (s.pending = false ∨ s.now < s.dueTime ∨ s.executing = true → step s = .next { s with events := es })

/-- Rules R132, R138: a successful read of 53 bytes reaches the block as FRAME in the next step, and its report the
EventSink; the cycle is then over. That the step which runs the FRAME also ends the cycle is the model's reading
(notes/assumptions/15.md). -/
def Obligations.ReadReachesTheSink : Prop :=
  ∀ (bytes : List Byte) (es : List HostEvent) (s : State), s.port = [] → s.events = .readOk bytes :: es →
    s.executing = true → bytes.length = 53 → ∃ t u r, step s = .next t ∧ step t = .next u ∧
      u.report = some r ∧ u.sink = s.sink ++ [r] ∧ u.executing = false ∧ u.port = [] ∧ u.status = s.status ∧
      ∀ i : SlotIndex, u.slots[i] = slotAt bytes i ∧ r.events[i].kind = kindAt bytes i

/-- Rules R132, R134, R136: at the end of a read cycle, a 0x5A frame requests exactly one read at the poll interval of 20,
any other frame none; a read an interrupt made pending meanwhile stays as it is; after stop() nothing is requested
(rule R139). That the FRAME's own step ends the cycle and makes the request is the model's reading
(notes/assumptions/15.md), and times that never wrap are its choice (notes/assumptions/25.md). -/
def Obligations.CycleEndRequests : Prop :=
  ∀ s : State, s.port = [{ cmd := 0x01#8, issuer := .worker }] → (Memory.bytes s.buf).length = 53 →
    ∃ t, step s = .next t ∧ t.executing = false ∧
      (s.pending = true → t.pending = true ∧ t.dueTime = s.dueTime ∧ t.pollState = s.pollState) ∧
      (s.pending = false → s.stopCalled = false → byteAt (Memory.bytes s.buf) 0 = 0x5A#8 →
        t.pending = true ∧ t.dueTime = s.now + 20 ∧ t.pollState = .active) ∧
      (s.pending = false → byteAt (Memory.bytes s.buf) 0 ≠ 0x5A#8 → t.pending = false ∧ t.pollState = .idle) ∧
      (s.pending = false → s.stopCalled = true → t.pending = false)

/-- A worker's SizeMismatch goes to the integration boundary, and the host stops as if stop() had been called: no further
read (from rules R137 and R139). That stopping so sets `stopCalled` and that the cycle is over at once are the model's
reading (notes/assumptions/9.md), in the FRAME's own step (notes/assumptions/15.md). -/
def Obligations.SizeMismatchStopsTheHost : Prop :=
  ∀ s : State, s.port = [{ cmd := 0x01#8, issuer := .worker }] → (Memory.bytes s.buf).length ≠ 53 →
    ∃ t, step s = .next t ∧ t.propagated = some (.sizeMismatch (Memory.bytes s.buf).length) ∧
      t.stopCalled = true ∧ t.pending = false ∧ t.executing = false ∧ t.sink = s.sink ∧ t.slots = s.slots

/-- Rule R133: a transport failure issues no command, emits no event and requests no retry; the scheduler is left Idle
unless an interrupt made a read pending. -/
def Obligations.TransportFailure : Prop :=
  ∀ (es : List HostEvent) (s : State), s.port = [] → s.events = .readFail :: es → s.executing = true →
    ∃ t, step s = .next t ∧ SameBlock s t ∧ t.port = [] ∧ t.executing = false ∧ t.pending = s.pending ∧
      t.dueTime = s.dueTime ∧ t.transportFailures = s.transportFailures + 1 ∧
      t.pollState = if s.pending then s.pollState else .idle

/-- Rules R74, R132: `WAIT t` advances the time by `t` units and changes nothing else: a read that falls due starts at the
worker's own event. Both that time passes in this event only and that time is a whole number of units which never wraps
are the model's choice (notes/assumptions/22.md, 25.md). -/
def Obligations.WaitAdvancesTime : Prop :=
  ∀ (t : Nat) (es : List HostEvent) (s : State), s.port = [] → s.events = .wait t :: es →
    step s = .next { s with events := es, now := s.now + t }

/-- Rule R139: the first start() is recorded, and arms the host unless stop() has been called; stop() cancels the pending
read, leaving an executing cycle to complete; a second call of either is refused. That a first start() after stop() is
accepted, although it arms nothing, and that stop() after a SizeMismatch stop counts as a second call are the model's
readings (notes/assumptions/20.md, 9.md). -/
def Obligations.LifecycleCalls : Prop :=
  ∀ (es : List HostEvent) (s : State), s.port = [] →
    (s.events = .start :: es → s.startCalled = false → step s = .next { s with events := es, startCalled := true }) ∧
    (s.events = .start :: es → s.startCalled = true → step s = .refused .secondStart) ∧
    (s.events = .stop :: es → s.stopCalled = false → ∃ t, step s = .next t ∧ t.stopCalled = true ∧
      t.pending = false ∧ t.executing = s.executing ∧ SameBlock s t) ∧
    (s.events = .stop :: es → s.stopCalled = true → step s = .refused .secondStop)

/-- Rules R139, R159: after stop() has returned, no run of any length gives the block a command or the EventSink a
report. A command the host issues all the same is refused (the model's choice, notes/assumptions/10.md). -/
def Obligations.QuietAfterStop : Prop :=
  ∀ (k : Nat) (s t : State), Inv s → s.stopCalled = true → s.executing = false → s.port = [] →
    Host.Core.run Sys2Proof.core k s = .next t →
    SameBlock s t ∧ t.port = [] ∧ t.stopCalled = true ∧ t.executing = false

end
end

