-- ==== Sys2Proof/Laws/Decode.lean ====
section
/-! SUPPORT. The block's sizes and offsets as numbers (rules R7, R64), and the small lemmas of the bit fields and of the encoder: packing two nibbles and taking them back, and the encoded record and frame byte by byte. -/

namespace Sys2Proof

/-! ### The block's sizes and offsets (rules R7, R64)

`Config.block` is reducible, so `simp` reads its fields; `omega` does not, and takes these. -/

theorem block_nSlots : Config.block.nSlots = 10 := rfl
theorem block_frameBytes : Config.block.frameBytes = 53 := rfl
theorem block_fingerBytes : Config.block.fingerBytes = 5 := rfl
theorem block_coordBits : Config.block.coordBits = 12 := rfl
theorem block_pollInterval : Config.block.pollInterval = 20 := rfl
@[simp] theorem block_recordOffset (i k : Nat) : recordOffset Config.block i k = 1 + 5 * i + k := rfl
@[simp] theorem block_maskOffset : maskOffset Config.block = 51 := rfl
@[simp] theorem block_checksumOffset : checksumOffset Config.block = 52 := rfl

/-- A slot index is below ten, as a fact `omega` reads. -/
theorem slotIndex_lt (i : SlotIndex) : i.val < 10 := i.isLt

/-- A coordinate is below 4096, as a fact `omega` reads. -/
theorem coord_lt (c : Coord) : c.toNat < 4096 := c.isLt

/-- Two files of slots are equal when they agree at every slot index. -/
theorem perSlot_ext {α : Type} {a b : PerSlot α} (h : ∀ i : SlotIndex, a[i] = b[i]) : a = b :=
  Vector.ext fun i hi => h ⟨i, hi⟩

/-! ### Bit fields -/

@[simp] theorem highNibble_joinNibbles (h l : Nibble) : highNibble (joinNibbles h l) = h := by
  revert h l; decide

@[simp] theorem lowNibble_joinNibbles (h l : Nibble) : lowNibble (joinNibbles h l) = l := by
  revert h l; decide

@[simp] theorem joinNibbles_nibbles (b : Byte) : joinNibbles (highNibble b) (lowNibble b) = b := by
  revert b; decide

@[simp] theorem firstField_packFields (o : NibbleOrder) (a b : Nibble) : firstField o (packFields o a b) = a := by
  cases o <;> simp [firstField, packFields]

@[simp] theorem secondField_packFields (o : NibbleOrder) (a b : Nibble) : secondField o (packFields o a b) = b := by
  cases o <;> simp [secondField, packFields]

/-! ### The encoder -/

/-- The record's five bytes under the block's layout (rules R61, R62). -/
theorem encodeFinger_block_toList (r : FingerRecord) :
    (encodeFinger Config.block r).toList = [joinNibbles r.xHi r.yHi, r.xLo, r.yLo, r.fingerChecksum, 0x00#8] := by
  simp [encodeFinger, Config.block, packFields, Vector.toList_ofFn, List.ofFn_succ]

/-- The frame's first byte is the packet id (rule R60), under every configuration. -/
@[simp] theorem encodeFrameByte_zero (cfg : Config) (f : TouchFrameOf cfg.nSlots) :
    encodeFrameByte cfg f 0 = f.packetId := by
  simp [encodeFrameByte]

/-- The byte after the records packs the masks (rule R63), under every configuration. -/
@[simp] theorem encodeFrameByte_maskOffset (cfg : Config) (f : TouchFrameOf cfg.nSlots) :
    encodeFrameByte cfg f (maskOffset cfg) = packFields cfg.nibbleOrder f.keyMask f.proximityMask := by
  have h : maskOffset cfg ≠ 0 := by simp [maskOffset, recordOffset]
  simp [encodeFrameByte, h]

/-- The last byte is the frame checksum (rule R60), under every configuration. -/
@[simp] theorem encodeFrameByte_checksumOffset (cfg : Config) (f : TouchFrameOf cfg.nSlots) :
    encodeFrameByte cfg f (checksumOffset cfg) = f.frameChecksum := by
  simp [encodeFrameByte, checksumOffset]

/-- Byte `k` of record `i` stands at the record's offset (rules R60, R61), under every configuration. -/
theorem encodeFrameByte_recordOffset (cfg : Config) (f : TouchFrameOf cfg.nSlots) {i k : Nat} (hi : i < cfg.nSlots)
    (hk : k < cfg.fingerBytes) :
    encodeFrameByte cfg f (recordOffset cfg i k) = (encodeFinger cfg f.fingers[i])[k] := by
  have hlt := recordOffset_lt cfg hi hk
  have h0 : recordOffset cfg i k ≠ 0 := by simp [recordOffset]
  have hsub : recordOffset cfg i k - 1 = k + cfg.fingerBytes * i := by simp only [recordOffset]; omega
  have hdiv : (k + cfg.fingerBytes * i) / cfg.fingerBytes = i := by
    rw [Nat.add_mul_div_left _ _ (Nat.zero_lt_of_lt hk), Nat.div_eq_of_lt hk, Nat.zero_add]
  have hmod : (k + cfg.fingerBytes * i) % cfg.fingerBytes = k := by
    rw [Nat.add_mul_mod_self_left, Nat.mod_eq_of_lt hk]
  simp only [encodeFrameByte, h0, hlt, dite_false, dite_true, hsub, hdiv, hmod]

end Sys2Proof
end

