-- ==== Sys2Proof/Laws/State.lean ====
section
/-! SUPPORT. One lemma per field per update of State, so that no proof unfolds a record update. -/

namespace Sys2Proof.Machine

/-! Raising a fault writes its STATUS bit, the outcome and the report port (rule R123). -/

@[simp] theorem raise_slots (f : CmdFault) (s : State) : (raise f s).slots = s.slots := rfl
@[simp] theorem raise_status (f : CmdFault) (s : State) : (raise f s).status = s.status ||| f.statusBit := rfl
@[simp] theorem raise_outcome (f : CmdFault) (s : State) : (raise f s).outcome = some (.fault f) := rfl
@[simp] theorem raise_report (f : CmdFault) (s : State) : (raise f s).report = none := rfl
@[simp] theorem raise_port (f : CmdFault) (s : State) : (raise f s).port = s.port := rfl
@[simp] theorem raise_buf (f : CmdFault) (s : State) : (raise f s).buf = s.buf := rfl
@[simp] theorem raise_pollState (f : CmdFault) (s : State) : (raise f s).pollState = s.pollState := rfl
@[simp] theorem raise_pending (f : CmdFault) (s : State) : (raise f s).pending = s.pending := rfl
@[simp] theorem raise_dueTime (f : CmdFault) (s : State) : (raise f s).dueTime = s.dueTime := rfl
@[simp] theorem raise_executing (f : CmdFault) (s : State) : (raise f s).executing = s.executing := rfl
@[simp] theorem raise_startCalled (f : CmdFault) (s : State) : (raise f s).startCalled = s.startCalled := rfl
@[simp] theorem raise_stopCalled (f : CmdFault) (s : State) : (raise f s).stopCalled = s.stopCalled := rfl
@[simp] theorem raise_now (f : CmdFault) (s : State) : (raise f s).now = s.now := rfl
@[simp] theorem raise_sink (f : CmdFault) (s : State) : (raise f s).sink = s.sink := rfl
@[simp] theorem raise_transportFailures (f : CmdFault) (s : State) : (raise f s).transportFailures = s.transportFailures := rfl
@[simp] theorem raise_propagated (f : CmdFault) (s : State) : (raise f s).propagated = s.propagated := rfl
@[simp] theorem raise_events (f : CmdFault) (s : State) : (raise f s).events = s.events := rfl

/-! A silent completion writes the outcome and the report port. -/

@[simp] theorem completeSilent_slots (s : State) : (completeSilent s).slots = s.slots := rfl
@[simp] theorem completeSilent_status (s : State) : (completeSilent s).status = s.status := rfl
@[simp] theorem completeSilent_outcome (s : State) : (completeSilent s).outcome = some .ok := rfl
@[simp] theorem completeSilent_report (s : State) : (completeSilent s).report = none := rfl
@[simp] theorem completeSilent_port (s : State) : (completeSilent s).port = s.port := rfl
@[simp] theorem completeSilent_buf (s : State) : (completeSilent s).buf = s.buf := rfl
@[simp] theorem completeSilent_pollState (s : State) : (completeSilent s).pollState = s.pollState := rfl
@[simp] theorem completeSilent_pending (s : State) : (completeSilent s).pending = s.pending := rfl
@[simp] theorem completeSilent_dueTime (s : State) : (completeSilent s).dueTime = s.dueTime := rfl
@[simp] theorem completeSilent_executing (s : State) : (completeSilent s).executing = s.executing := rfl
@[simp] theorem completeSilent_startCalled (s : State) : (completeSilent s).startCalled = s.startCalled := rfl
@[simp] theorem completeSilent_stopCalled (s : State) : (completeSilent s).stopCalled = s.stopCalled := rfl
@[simp] theorem completeSilent_now (s : State) : (completeSilent s).now = s.now := rfl
@[simp] theorem completeSilent_sink (s : State) : (completeSilent s).sink = s.sink := rfl
@[simp] theorem completeSilent_transportFailures (s : State) : (completeSilent s).transportFailures = s.transportFailures := rfl
@[simp] theorem completeSilent_propagated (s : State) : (completeSilent s).propagated = s.propagated := rfl
@[simp] theorem completeSilent_events (s : State) : (completeSilent s).events = s.events := rfl

/-! Emitting a report writes the outcome, the report port and the sink (rule R30). -/

@[simp] theorem emit_slots (r : Report) (s : State) : (emit r s).slots = s.slots := rfl
@[simp] theorem emit_status (r : Report) (s : State) : (emit r s).status = s.status := rfl
@[simp] theorem emit_outcome (r : Report) (s : State) : (emit r s).outcome = some .ok := rfl
@[simp] theorem emit_report (r : Report) (s : State) : (emit r s).report = some r := rfl
@[simp] theorem emit_port (r : Report) (s : State) : (emit r s).port = s.port := rfl
@[simp] theorem emit_buf (r : Report) (s : State) : (emit r s).buf = s.buf := rfl
@[simp] theorem emit_pollState (r : Report) (s : State) : (emit r s).pollState = s.pollState := rfl
@[simp] theorem emit_pending (r : Report) (s : State) : (emit r s).pending = s.pending := rfl
@[simp] theorem emit_dueTime (r : Report) (s : State) : (emit r s).dueTime = s.dueTime := rfl
@[simp] theorem emit_executing (r : Report) (s : State) : (emit r s).executing = s.executing := rfl
@[simp] theorem emit_startCalled (r : Report) (s : State) : (emit r s).startCalled = s.startCalled := rfl
@[simp] theorem emit_stopCalled (r : Report) (s : State) : (emit r s).stopCalled = s.stopCalled := rfl
@[simp] theorem emit_now (r : Report) (s : State) : (emit r s).now = s.now := rfl
@[simp] theorem emit_sink (r : Report) (s : State) : (emit r s).sink = s.sink ++ [r] := rfl
@[simp] theorem emit_transportFailures (r : Report) (s : State) : (emit r s).transportFailures = s.transportFailures := rfl
@[simp] theorem emit_propagated (r : Report) (s : State) : (emit r s).propagated = s.propagated := rfl
@[simp] theorem emit_events (r : Report) (s : State) : (emit r s).events = s.events := rfl

/-! The tracker's update of a whole frame writes the slots and what emitting writes (rule R100). -/

@[simp] theorem trackFrame_slots (f : TouchFrame) (cls : FrameClass) (c : Bool) (cs : PerSlot (Option Pos)) (s : State) : (trackFrame f cls c cs s).slots = trackedSlots cs := rfl
@[simp] theorem trackFrame_status (f : TouchFrame) (cls : FrameClass) (c : Bool) (cs : PerSlot (Option Pos)) (s : State) : (trackFrame f cls c cs s).status = s.status := rfl
@[simp] theorem trackFrame_outcome (f : TouchFrame) (cls : FrameClass) (c : Bool) (cs : PerSlot (Option Pos)) (s : State) : (trackFrame f cls c cs s).outcome = some .ok := rfl
@[simp] theorem trackFrame_report (f : TouchFrame) (cls : FrameClass) (c : Bool) (cs : PerSlot (Option Pos)) (s : State) : (trackFrame f cls c cs s).report = some (frameReport f cls c s.slots cs) := rfl
@[simp] theorem trackFrame_port (f : TouchFrame) (cls : FrameClass) (c : Bool) (cs : PerSlot (Option Pos)) (s : State) : (trackFrame f cls c cs s).port = s.port := rfl
@[simp] theorem trackFrame_buf (f : TouchFrame) (cls : FrameClass) (c : Bool) (cs : PerSlot (Option Pos)) (s : State) : (trackFrame f cls c cs s).buf = s.buf := rfl
@[simp] theorem trackFrame_pollState (f : TouchFrame) (cls : FrameClass) (c : Bool) (cs : PerSlot (Option Pos)) (s : State) : (trackFrame f cls c cs s).pollState = s.pollState := rfl
@[simp] theorem trackFrame_pending (f : TouchFrame) (cls : FrameClass) (c : Bool) (cs : PerSlot (Option Pos)) (s : State) : (trackFrame f cls c cs s).pending = s.pending := rfl
@[simp] theorem trackFrame_dueTime (f : TouchFrame) (cls : FrameClass) (c : Bool) (cs : PerSlot (Option Pos)) (s : State) : (trackFrame f cls c cs s).dueTime = s.dueTime := rfl
@[simp] theorem trackFrame_executing (f : TouchFrame) (cls : FrameClass) (c : Bool) (cs : PerSlot (Option Pos)) (s : State) : (trackFrame f cls c cs s).executing = s.executing := rfl
@[simp] theorem trackFrame_startCalled (f : TouchFrame) (cls : FrameClass) (c : Bool) (cs : PerSlot (Option Pos)) (s : State) : (trackFrame f cls c cs s).startCalled = s.startCalled := rfl
@[simp] theorem trackFrame_stopCalled (f : TouchFrame) (cls : FrameClass) (c : Bool) (cs : PerSlot (Option Pos)) (s : State) : (trackFrame f cls c cs s).stopCalled = s.stopCalled := rfl
@[simp] theorem trackFrame_now (f : TouchFrame) (cls : FrameClass) (c : Bool) (cs : PerSlot (Option Pos)) (s : State) : (trackFrame f cls c cs s).now = s.now := rfl
@[simp] theorem trackFrame_sink (f : TouchFrame) (cls : FrameClass) (c : Bool) (cs : PerSlot (Option Pos)) (s : State) : (trackFrame f cls c cs s).sink = s.sink ++ [frameReport f cls c s.slots cs] := rfl
@[simp] theorem trackFrame_transportFailures (f : TouchFrame) (cls : FrameClass) (c : Bool) (cs : PerSlot (Option Pos)) (s : State) : (trackFrame f cls c cs s).transportFailures = s.transportFailures := rfl
@[simp] theorem trackFrame_propagated (f : TouchFrame) (cls : FrameClass) (c : Bool) (cs : PerSlot (Option Pos)) (s : State) : (trackFrame f cls c cs s).propagated = s.propagated := rfl
@[simp] theorem trackFrame_events (f : TouchFrame) (cls : FrameClass) (c : Bool) (cs : PerSlot (Option Pos)) (s : State) : (trackFrame f cls c cs s).events = s.events := rfl

/-! The tracker's update of one slot writes that slot and its entry of the report under construction. -/

@[simp] theorem trackSlot_slots (i : SlotIndex) (c : Option Pos) (s : State) : (trackSlot i c s).slots = s.slots.set i (Slot.ofContact c) := rfl
@[simp] theorem trackSlot_status (i : SlotIndex) (c : Option Pos) (s : State) : (trackSlot i c s).status = s.status := rfl
@[simp] theorem trackSlot_outcome (i : SlotIndex) (c : Option Pos) (s : State) : (trackSlot i c s).outcome = s.outcome := rfl
@[simp] theorem trackSlot_report (i : SlotIndex) (c : Option Pos) (s : State) :
    (trackSlot i c s).report = s.report.map (Report.setEntry i (EventKind.ofContact c) (transitionOf s.slots[i].active c.isSome)) := rfl
@[simp] theorem trackSlot_port (i : SlotIndex) (c : Option Pos) (s : State) : (trackSlot i c s).port = s.port := rfl
@[simp] theorem trackSlot_buf (i : SlotIndex) (c : Option Pos) (s : State) : (trackSlot i c s).buf = s.buf := rfl
@[simp] theorem trackSlot_pollState (i : SlotIndex) (c : Option Pos) (s : State) : (trackSlot i c s).pollState = s.pollState := rfl
@[simp] theorem trackSlot_pending (i : SlotIndex) (c : Option Pos) (s : State) : (trackSlot i c s).pending = s.pending := rfl
@[simp] theorem trackSlot_dueTime (i : SlotIndex) (c : Option Pos) (s : State) : (trackSlot i c s).dueTime = s.dueTime := rfl
@[simp] theorem trackSlot_executing (i : SlotIndex) (c : Option Pos) (s : State) : (trackSlot i c s).executing = s.executing := rfl
@[simp] theorem trackSlot_startCalled (i : SlotIndex) (c : Option Pos) (s : State) : (trackSlot i c s).startCalled = s.startCalled := rfl
@[simp] theorem trackSlot_stopCalled (i : SlotIndex) (c : Option Pos) (s : State) : (trackSlot i c s).stopCalled = s.stopCalled := rfl
@[simp] theorem trackSlot_now (i : SlotIndex) (c : Option Pos) (s : State) : (trackSlot i c s).now = s.now := rfl
@[simp] theorem trackSlot_sink (i : SlotIndex) (c : Option Pos) (s : State) : (trackSlot i c s).sink = s.sink := rfl
@[simp] theorem trackSlot_transportFailures (i : SlotIndex) (c : Option Pos) (s : State) : (trackSlot i c s).transportFailures = s.transportFailures := rfl
@[simp] theorem trackSlot_propagated (i : SlotIndex) (c : Option Pos) (s : State) : (trackSlot i c s).propagated = s.propagated := rfl
@[simp] theorem trackSlot_events (i : SlotIndex) (c : Option Pos) (s : State) : (trackSlot i c s).events = s.events := rfl

/-! Presenting commands writes the port's inputs (rule R27). -/

@[simp] theorem present_slots (cs : List Issue) (b : List Byte) (s : State) : (present cs b s).slots = s.slots := rfl
@[simp] theorem present_status (cs : List Issue) (b : List Byte) (s : State) : (present cs b s).status = s.status := rfl
@[simp] theorem present_outcome (cs : List Issue) (b : List Byte) (s : State) : (present cs b s).outcome = s.outcome := rfl
@[simp] theorem present_report (cs : List Issue) (b : List Byte) (s : State) : (present cs b s).report = s.report := rfl
@[simp] theorem present_port (cs : List Issue) (b : List Byte) (s : State) : (present cs b s).port = cs := rfl
@[simp] theorem present_buf (cs : List Issue) (b : List Byte) (s : State) : (present cs b s).buf = Memory.ofBytes b := rfl
@[simp] theorem present_pollState (cs : List Issue) (b : List Byte) (s : State) : (present cs b s).pollState = s.pollState := rfl
@[simp] theorem present_pending (cs : List Issue) (b : List Byte) (s : State) : (present cs b s).pending = s.pending := rfl
@[simp] theorem present_dueTime (cs : List Issue) (b : List Byte) (s : State) : (present cs b s).dueTime = s.dueTime := rfl
@[simp] theorem present_executing (cs : List Issue) (b : List Byte) (s : State) : (present cs b s).executing = s.executing := rfl
@[simp] theorem present_startCalled (cs : List Issue) (b : List Byte) (s : State) : (present cs b s).startCalled = s.startCalled := rfl
@[simp] theorem present_stopCalled (cs : List Issue) (b : List Byte) (s : State) : (present cs b s).stopCalled = s.stopCalled := rfl
@[simp] theorem present_now (cs : List Issue) (b : List Byte) (s : State) : (present cs b s).now = s.now := rfl
@[simp] theorem present_sink (cs : List Issue) (b : List Byte) (s : State) : (present cs b s).sink = s.sink := rfl
@[simp] theorem present_transportFailures (cs : List Issue) (b : List Byte) (s : State) : (present cs b s).transportFailures = s.transportFailures := rfl
@[simp] theorem present_propagated (cs : List Issue) (b : List Byte) (s : State) : (present cs b s).propagated = s.propagated := rfl
@[simp] theorem present_events (cs : List Issue) (b : List Byte) (s : State) : (present cs b s).events = s.events := rfl

/-! stop() writes the host contract only (rule R139). -/

@[simp] theorem stopHost_slots (s : State) : (stopHost s).slots = s.slots := rfl
@[simp] theorem stopHost_status (s : State) : (stopHost s).status = s.status := rfl
@[simp] theorem stopHost_outcome (s : State) : (stopHost s).outcome = s.outcome := rfl
@[simp] theorem stopHost_report (s : State) : (stopHost s).report = s.report := rfl
@[simp] theorem stopHost_port (s : State) : (stopHost s).port = s.port := rfl
@[simp] theorem stopHost_buf (s : State) : (stopHost s).buf = s.buf := rfl
@[simp] theorem stopHost_pollState (s : State) : (stopHost s).pollState = .idle := rfl
@[simp] theorem stopHost_pending (s : State) : (stopHost s).pending = false := rfl
@[simp] theorem stopHost_dueTime (s : State) : (stopHost s).dueTime = s.dueTime := rfl
@[simp] theorem stopHost_executing (s : State) : (stopHost s).executing = s.executing := rfl
@[simp] theorem stopHost_startCalled (s : State) : (stopHost s).startCalled = s.startCalled := rfl
@[simp] theorem stopHost_stopCalled (s : State) : (stopHost s).stopCalled = true := rfl
@[simp] theorem stopHost_now (s : State) : (stopHost s).now = s.now := rfl
@[simp] theorem stopHost_sink (s : State) : (stopHost s).sink = s.sink := rfl
@[simp] theorem stopHost_transportFailures (s : State) : (stopHost s).transportFailures = s.transportFailures := rfl
@[simp] theorem stopHost_propagated (s : State) : (stopHost s).propagated = s.propagated := rfl
@[simp] theorem stopHost_events (s : State) : (stopHost s).events = s.events := rfl

end Sys2Proof.Machine
end

