-- ==== Sys2Proof/Laws/Ops.lean ====
section
/-! SUPPORT. What each shared operation can do, said once: the size check, the frame buffer's memory, the tracker's tables, and the operations of the host contract. -/

namespace Sys2Proof.Machine

/-! ### The size check (rule R80) -/

theorem sizeCheck_of_length {cfg : Config} {buf : List Byte} (h : buf.length = cfg.frameBytes) :
    sizeCheck cfg buf = .ok ⟨buf.toArray, by simpa using h⟩ := by
  simp [sizeCheck, h]

theorem sizeCheck_of_length_ne {cfg : Config} {buf : List Byte} (h : buf.length ≠ cfg.frameBytes) :
    sizeCheck cfg buf = .error buf.length := by
  simp [sizeCheck, h]

/-- A frame's byte is the buffer's byte at the same offset. -/
theorem getElem_toFrame {cfg : Config} {buf : List Byte} (h : buf.length = cfg.frameBytes) (k : Nat)
    (hk : k < cfg.frameBytes) : (⟨buf.toArray, by simpa using h⟩ : Frame cfg)[k] = byteAt buf k := by
  simp [byteAt, List.getElem?_eq_getElem (by omega : k < buf.length)]

/-! ### The frame buffer (rule R40) -/

@[simp] theorem Memory.bytes_ofBytes (bytes : List Byte) : Memory.bytes (Memory.ofBytes bytes) = bytes := by
  simp [Memory.bytes, Memory.ofBytes, Function.comp_def]

@[simp] theorem Memory.length_ofBytes (bytes : List Byte) : (Memory.ofBytes bytes).length = bytes.length := by
  simp [Memory.ofBytes]

/-- Every buffer the host supplies is in canonical form; no other operation makes a memory. -/
@[simp] theorem Memory.wf_ofBytes (bytes : List Byte) : Memory.wf (Memory.ofBytes bytes) = true := by
  simp [Memory.wf, Memory.ofBytes, Function.comp_def, List.zipIdx_map_snd, List.range_eq_range']

theorem Memory.wf_reset : Memory.wf State.reset.buf = true := by decide

/-! ### The tracker's tables (rules R102 to R104, R106) -/

@[simp] theorem trackedSlots_getElem (cs : PerSlot (Option Pos)) (i : Nat) (h : i < Config.block.nSlots) :
    (trackedSlots cs)[i] = Slot.ofContact cs[i] := by
  simp [trackedSlots]

@[simp] theorem trackedEvents_getElem (cs : PerSlot (Option Pos)) (i : Nat) (h : i < Config.block.nSlots) :
    (trackedEvents cs)[i] = { slotIndex := ⟨i, h⟩, kind := EventKind.ofContact cs[i] } := by
  simp [trackedEvents]

@[simp] theorem trackedTransitions_getElem (sl : PerSlot Slot) (cs : PerSlot (Option Pos)) (i : Nat) (h : i < Config.block.nSlots) :
    (trackedTransitions sl cs)[i] = transitionOf sl[i].active cs[i].isSome := by
  simp [trackedTransitions]

@[simp] theorem Slot.ofContact_active (c : Option Pos) : (Slot.ofContact c).active = c.isSome := by
  cases c <;> rfl

@[simp] theorem Slot.ofContact_pos (c : Option Pos) : (Slot.ofContact c).pos = c := by
  cases c <;> rfl

@[simp] theorem EventKind.ofContact_isTouching (c : Option Pos) : (EventKind.ofContact c).isTouching = c.isSome := by
  cases c <;> rfl

@[simp] theorem contactOf_isSome (t : Bool) (r : FingerRecord) : (contactOf t r).isSome = t := by
  cases t <;> rfl

theorem anyTouchingOf_eq_true {ev : PerSlot SlotEvent} :
    anyTouchingOf ev = true ↔ ∃ i : SlotIndex, ev[i].kind.isTouching = true := by
  simp [anyTouchingOf]

/-! ### The command word (rules R70 to R72) -/

@[simp] theorem decodeCommand_frame (buf : List Byte) : decodeCommand 0x01#8 buf = .frame buf := rfl

@[simp] theorem decodeCommand_reset (buf : List Byte) : decodeCommand 0x02#8 buf = .reset := rfl

theorem decodeCommand_reserved {c : Byte} (h1 : c ≠ 0x01#8) (h2 : c ≠ 0x02#8) (buf : List Byte) :
    decodeCommand c buf = .reservedCmd c := by
  simp [decodeCommand, cmdFrame, cmdReset, h1, h2]

/-! ### FRAME's two ways (rule R100) -/

theorem execFrame_of_length {buf : List Byte} (h : buf.length = 53) (s : State) :
    exec (.frame buf) s = .next (runFrame (decodeFrame Config.block ⟨buf.toArray, by simpa using h⟩) s) := by
  simp only [exec, execFrame, sizeCheck_of_length (cfg := Config.block) h]

theorem execFrame_of_length_ne {buf : List Byte} (h : buf.length ≠ 53) (s : State) :
    exec (.frame buf) s = .next (raise (.sizeMismatch buf.length) s) := by
  simp only [exec, execFrame, sizeCheck_of_length_ne (cfg := Config.block) h]

/-! ### The host contract writes no block state (rules R52, R156) -/

theorem SameBlock.refl (s : State) : SameBlock s s := ⟨rfl, rfl, rfl, rfl, rfl⟩

theorem SameBlock.trans {s t u : State} (h : SameBlock s t) (h' : SameBlock t u) : SameBlock s u :=
  ⟨h'.slots.trans h.slots, h'.status.trans h.status, h'.outcome.trans h.outcome, h'.report.trans h.report,
    h'.sink.trans h.sink⟩

theorem interrupt_sameBlock (s : State) : SameBlock s (interrupt s) := by
  unfold interrupt; split <;> constructor <;> rfl

theorem requestRead_sameBlock (d : Nat) (s : State) : SameBlock s (requestRead d s) := by
  unfold requestRead; split <;> constructor <;> rfl

theorem settle_sameBlock (s : State) : SameBlock s (settle s) := by
  unfold settle; split <;> constructor <;> rfl

theorem startCycle_sameBlock (s : State) : SameBlock s (startCycle s) := by
  unfold startCycle; split <;> constructor <;> rfl

theorem stopHost_sameBlock (s : State) : SameBlock s (stopHost s) := by constructor <;> rfl

theorem present_sameBlock (cs : List Issue) (b : List Byte) (s : State) : SameBlock s (present cs b s) := by
  constructor <;> rfl

theorem failCycle_sameBlock (s : State) : SameBlock s (failCycle s) := by
  have h := settle_sameBlock s
  exact ⟨h.slots, h.status, h.outcome, h.report, h.sink⟩

theorem completeCycle_sameBlock (s : State) : SameBlock s (completeCycle s) := by
  have hs := settle_sameBlock s
  have hr := requestRead_sameBlock Config.block.pollInterval s
  unfold completeCycle
  split
  · constructor <;> rfl
  · split
    · exact ⟨hr.slots, hr.status, hr.outcome, hr.report, hr.sink⟩
    · exact ⟨hs.slots, hs.status, hs.outcome, hs.report, hs.sink⟩
  · exact ⟨hs.slots, hs.status, hs.outcome, hs.report, hs.sink⟩

/-- Whatever happens in the environment, the block keeps its state. -/
theorem hostEvent_sameBlock {e : HostEvent} {s t : State} (h : hostEvent e s = .next t) : SameBlock s t := by
  cases e <;> simp only [hostEvent] at h
  case issue => split at h <;> cases h; exact present_sameBlock ..
  case irq => cases h; exact interrupt_sameBlock s
  case wait => cases h; constructor <;> rfl
  case workerStart => cases h; exact startCycle_sameBlock s
  case readOk => split at h <;> cases h; exact present_sameBlock ..
  case readFail => split at h <;> cases h; exact failCycle_sameBlock s
  case start => split at h <;> cases h; constructor <;> rfl
  case stop => split at h <;> cases h; exact stopHost_sameBlock s

/-! ### What a step can be -/

/-- With no command on the port, a step is the environment's next event. -/
theorem step_of_event {s : State} {e : HostEvent} {es : List HostEvent} (hp : s.port = []) (he : s.events = e :: es) :
    step s = hostEvent e { s with events := es } := by
  unfold step; split <;> simp_all

/-- Each next state comes from an idle step, from one event of the environment, or from the one command on the port. -/
theorem step_cases {s t : State} (h : step s = .next t) :
    (s.port = [] ∧ s.events = [] ∧ t = s) ∨
    (∃ e es, s.port = [] ∧ s.events = e :: es ∧ hostEvent e { s with events := es } = .next t) ∨
    (∃ c u, s.port = [c] ∧ exec (fetch c s) { s with port := [] } = .next u ∧
      t = match c.issuer with | .worker => completeCycle u | .host => u) := by
  unfold step at h
  split at h
  next hp =>
    split at h
    next he => cases h; exact .inl ⟨hp, he, rfl⟩
    next e es he => exact .inr (.inl ⟨e, es, hp, he, h⟩)
  next c hp =>
    unfold afterCommand at h
    split at h
    next u hu => cases h; exact .inr (.inr ⟨c, u, hp, hu, rfl⟩)
    all_goals cases h
  next => cases h

/-- A run of `k + 1` steps whose first step answers a state goes on from there. -/
theorem run_of_next {k : Nat} {s t : State} (h : step s = .next t) :
    Host.Core.run Sys2Proof.core (k + 1) s = Host.Core.run Sys2Proof.core k t := by
  have h' : Sys2Proof.core.step s = .next t := h
  simp only [Host.Core.run, h']

/-- A run stops at a refusal. -/
theorem run_of_refused {k : Nat} {s : State} {r : Refusal} (h : step s = .refused r) :
    Host.Core.run Sys2Proof.core (k + 1) s = .refused r := by
  have h' : Sys2Proof.core.step s = .refused r := h
  simp only [Host.Core.run, h']

end Sys2Proof.Machine
end

