-- ==== Sys2Proof/Laws/PerInstr.lean ====
section
/-! SUPPORT. Per-instruction statements: the encoding of a well-formed instruction has its format's length and meets the match condition of its row of spec/opcode_table.json, and of no other row of that format. -/

namespace Sys2Proof.Laws.TableRow

/-- The row's length and match condition, on encoded bytes (rules R66, R67, R70, R71). -/
def rowMatches (bytes : List Byte) : Instr → Prop
  | .frame buf => bytes.length = 1 + buf.length ∧ bytes[0]? = some 0x01#8
  | .reset => bytes.length = 1 ∧ bytes[0]? = some 0x02#8
  | .reservedCmd _ => bytes.length = 1 ∧ bytes[0]? ≠ some 0x01#8 ∧ bytes[0]? ≠ some 0x02#8
  | .frameclassTouch _ => bytes.length = 53 ∧ bytes[0]? = some 0x5A#8 ∧ bytes[52]? ≠ some 0xFF#8
  | .frameclassTouchEmpty _ => bytes.length = 53 ∧ bytes[0]? = some 0x5A#8 ∧ bytes[52]? = some 0xFF#8
  | .frameclassNodata _ => bytes.length = 53 ∧ bytes[0]? ≠ some 0x5A#8
  | .fingerActive _ _ => bytes.length = 5 ∧ bytes[3]? ≠ some 0xFF#8
  | .fingerEmpty _ _ => bytes.length = 5 ∧ bytes[3]? = some 0xFF#8

def Statement (i : Instr) : Prop := i.wellFormed = true → rowMatches (encode i) i

/-- The frame's first byte is the packet id, its last the frame checksum (rule R60). -/
theorem encodeFrame_ends (f : TouchFrame) :
    (encodeFrame Config.block f).toList[0]? = some f.packetId ∧
      (encodeFrame Config.block f).toList[52]? = some f.frameChecksum := by
  have h := encodeFrameByte_checksumOffset Config.block f
  rw [block_checksumOffset] at h
  simp [encodeFrame, block_frameBytes, h]

/-- The record's byte 3 is the finger checksum (rule R61). -/
theorem encodeFinger_checksum (r : FingerRecord) :
    (encodeFinger Config.block r).toList[3]? = some r.fingerChecksum := by
  simp [encodeFinger, Config.block]

theorem frame (buf : List Byte) : Statement (.frame buf) := by
  intro _; simp [rowMatches, encode, cmdFrame, Nat.add_comm]

theorem reset : Statement .reset := by
  intro _; simp [rowMatches, encode, cmdReset]

theorem reservedCmd (cmd : Byte) : Statement (.reservedCmd cmd) := by
  intro h; simpa [rowMatches, encode, Instr.wellFormed, cmdFrame, cmdReset] using h

theorem frameclassTouch (f : TouchFrame) : Statement (.frameclassTouch f) := by
  intro h
  obtain ⟨h0, h52⟩ := encodeFrame_ends f
  simp only [rowMatches, encode, h0, h52]
  simpa [Instr.wellFormed, isTouchPid, isSentinel, Config.block] using h

theorem frameclassTouchEmpty (f : TouchFrame) : Statement (.frameclassTouchEmpty f) := by
  intro h
  obtain ⟨h0, h52⟩ := encodeFrame_ends f
  simp only [rowMatches, encode, h0, h52]
  simpa [Instr.wellFormed, isTouchPid, isSentinel, Config.block] using h

theorem frameclassNodata (f : TouchFrame) : Statement (.frameclassNodata f) := by
  intro h
  obtain ⟨h0, -⟩ := encodeFrame_ends f
  simp only [rowMatches, encode, h0]
  simpa [Instr.wellFormed, isTouchPid, Config.block] using h

theorem fingerActive (i : SlotIndex) (r : FingerRecord) : Statement (.fingerActive i r) := by
  intro h
  simp only [rowMatches, encode, encodeFinger_checksum]
  simpa [Instr.wellFormed, isSentinel, Config.block] using h

theorem fingerEmpty (i : SlotIndex) (r : FingerRecord) : Statement (.fingerEmpty i r) := by
  intro h
  simp only [rowMatches, encode, encodeFinger_checksum]
  simpa [Instr.wellFormed, isSentinel, Config.block] using h

end Sys2Proof.Laws.TableRow
end

