-- ==== Sys2Proof/Tests/Slice0.lean ====
section
/-! SUPPORT. Tests: ill-formed terms refused, words written out from the encoding tables, the spec's own vectors, and for each obligation with hypotheses a concrete case that meets them. Expected values come from spec/95_test_vectors.md and the rules named. -/

namespace Sys2Proof.Tests

open Sys2Proof.Machine

/-! ### Helpers -/

/-- The next state has the property. -/
def nextIs (o : Host.Outcome State Fault Refusal) (p : State → Bool) : Bool :=
  match o with
  | .next t => p t
  | _ => false

/-- `n` groups FF FF FF FF FF. -/
def emptyRecords (n : Nat) : List Byte := List.replicate (5 * n) 0xFF#8

/-- V1's 53 bytes. -/
def v1 : List Byte := [0x5A#8, 0x00#8, 0x64#8, 0xC8#8, 0x01#8, 0x00#8] ++ emptyRecords 9 ++ [0x00#8, 0x01#8]

/-- V2's: V1 with the last byte FF. -/
def v2 : List Byte := [0x5A#8, 0x00#8, 0x64#8, 0xC8#8, 0x01#8, 0x00#8] ++ emptyRecords 9 ++ [0x00#8, 0xFF#8]

/-- V3's: V1 with byte 0 = 00. -/
def v3 : List Byte := [0x00#8, 0x00#8, 0x64#8, 0xC8#8, 0x01#8, 0x00#8] ++ emptyRecords 9 ++ [0x00#8, 0x01#8]

/-- P3 step 1's. -/
def p3 : List Byte :=
  [0x5A#8, 0x00#8, 0x00#8, 0x07#8, 0x00#8, 0x00#8, 0x10#8, 0x90#8, 0xCF#8, 0x01#8, 0x00#8] ++
  [0x31#8, 0x20#8, 0x97#8, 0x02#8, 0x00#8, 0x42#8, 0xB0#8, 0x5F#8, 0x03#8, 0x00#8] ++
  [0x63#8, 0x40#8, 0x27#8, 0x04#8, 0x00#8, 0x73#8, 0xD0#8, 0xEF#8, 0x05#8, 0x00#8] ++
  [0x94#8, 0x60#8, 0xB7#8, 0x06#8, 0x00#8, 0xA5#8, 0xF0#8, 0x7F#8, 0x07#8, 0x00#8] ++
  [0xC6#8, 0x80#8, 0x47#8, 0x08#8, 0x00#8, 0xFF#8, 0xFF#8, 0xFF#8, 0xFE#8, 0x00#8] ++ [0xA5#8, 0x7E#8]

/-- A record, by x, y and checksum, for the row tests. -/
def rec (xHi : Nibble) (xLo : Byte) (yHi : Nibble) (yLo c : Byte) : FingerRecord :=
  { yHi := yHi, xHi := xHi, xLo := xLo, yLo := yLo, fingerChecksum := c }

/-- The TouchFrame V1 stands for (rule R82), with the packet id and the frame checksum open. -/
def tf (pid fchk : Byte) : TouchFrame where
  packetId := pid
  fingers := (Vector.replicate 10 (rec 15 0xFF 15 0xFF 0xFF)).set 0 (rec 0 0x64 0 0xC8 0x01)
  keyMask := 0#4
  proximityMask := 0#4
  frameChecksum := fchk

/-- An active slot. -/
def at' (x y : Coord) : Slot := { active := true, pos := some { x := x, y := y } }

/-- Reset with slot `i` active at (x, y). -/
def withSlot (i : SlotIndex) (x y : Coord) : State :=
  { State.reset with slots := State.reset.slots.set i (at' x y) }

/-- Reset with this command on the port. -/
def withCmd (c : Byte) (who : Issuer) (buf : List Byte) : State := present [{ cmd := c, issuer := who }] buf State.reset

/-- A started host with this event next. -/
def withEvent (e : HostEvent) : State := { State.reset with startCalled := true, events := [e] }

/-! ### Ill-formed terms are refused -/

theorem test_wf_reservedCmd_frame : (Instr.reservedCmd 0x01#8).wellFormed = false := by decide
theorem test_wf_reservedCmd_reset : (Instr.reservedCmd 0x02#8).wellFormed = false := by decide
theorem test_wf_touch_pid : (Instr.frameclassTouch (tf 0x5B 0x01)).wellFormed = false := by decide
theorem test_wf_touch_checksum : (Instr.frameclassTouch (tf 0x5A 0xFF)).wellFormed = false := by decide
theorem test_wf_touchEmpty_pid : (Instr.frameclassTouchEmpty (tf 0x00 0xFF)).wellFormed = false := by decide
theorem test_wf_touchEmpty_checksum : (Instr.frameclassTouchEmpty (tf 0x5A 0xFE)).wellFormed = false := by decide
theorem test_wf_nodata_pid : (Instr.frameclassNodata (tf 0x5A 0x01)).wellFormed = false := by decide
theorem test_wf_fingerActive : (Instr.fingerActive 0 (rec 0 0 0 0 0xFF)).wellFormed = false := by decide
theorem test_wf_fingerEmpty : (Instr.fingerEmpty 0 (rec 0 0 0 0 0xFE)).wellFormed = false := by decide

/-! ### Decoding words written out from the encoding tables -/

/-- R70: `00000001` is FRAME. -/
theorem test_decode_frame : decode .cmd8 (0b00000001#8 :: v1) = .ok (.frame v1) := by decide
/-- R70: `00000010` is RESET; a buffer attached is no operand of it (R72). -/
theorem test_decode_reset : decode .cmd8 [0b00000010#8, 0x5A#8] = .ok .reset := by decide
/-- R71: `00000011` is reserved. -/
theorem test_decode_reservedCmd : decode .cmd8 [0b00000011#8] = .ok (.reservedCmd 0x03#8) := by decide
/-- V1's bytes are a TOUCH frame with finger 0 = {x_lo 0x64, y_lo 0xC8, checksum 0x01}. -/
theorem test_decode_touch : decode .frame53 v1 = .ok (.frameclassTouch (tf 0x5A 0x01)) := by decide
/-- V2. -/
theorem test_decode_touchEmpty : decode .frame53 v2 = .ok (.frameclassTouchEmpty (tf 0x5A 0xFF)) := by decide
/-- V3. -/
theorem test_decode_nodata : decode .frame53 v3 = .ok (.frameclassNodata (tf 0x00 0x01)) := by decide
/-- V18: 12 34 56 gives x_hi 1, y_hi 2. -/
theorem test_decode_fingerActive :
    decode (.finger5 3) [0x12#8, 0x34#8, 0x56#8, 0x01#8, 0xAB#8] = .ok (.fingerActive 3 (rec 1 0x34 2 0x56 0x01)) := by decide
/-- V22: coordinates present, checksum FF. -/
theorem test_decode_fingerEmpty :
    decode (.finger5 9) [0xF0#8, 0xFF#8, 0x00#8, 0xFF#8, 0x00#8] = .ok (.fingerEmpty 9 (rec 15 0xFF 0 0x00 0xFF)) := by decide
/-- Wrong lengths are refused by name (R56, R61). -/
theorem test_decode_lengths : decode .frame53 (v1 ++ [0x00#8]) = .error (.frameLength 54) ∧
    decode (.finger5 0) [0x00#8] = .error (.fingerLength 1) := by decide
/-- V18 under both orders: x = 308, y = 598, and under HighFirst x = 564, y = 342. -/
theorem test_nibble_probe :
    recordPos (decodeFinger Config.block #v[0x12#8, 0x34#8, 0x56#8, 0x01#8, 0x00#8]) = { x := 308, y := 598 } ∧
    recordPos (decodeFinger { Config.block with nibbleOrder := .highFirst } #v[0x12#8, 0x34#8, 0x56#8, 0x01#8, 0x00#8]) =
      { x := 564, y := 342 } := by decide
/-- V14 to V17's coordinates. -/
theorem test_coordinates :
    (xCoord (rec 7 0xFF 15 0xFF 1), yCoord (rec 7 0xFF 15 0xFF 1)) = (2047, 4095) ∧
    xCoord (rec 8 0 0 0 1) = 2048 ∧ xCoord (rec 3 0x21 7 0x65 1) = 801 ∧ yCoord (rec 3 0x21 7 0x65 1) = 1893 := by decide
/-- P1 step 2's and P2 step 1's finger bytes from the frame builder (R75). -/
theorem test_builder :
    builderRecord [{ slot := 3, x := 2047, y := 1500, c := 0x10 }] 3 = [0x75#8, 0xFF#8, 0xDC#8, 0x10#8, 0x00#8] ∧
    builderRecord [{ slot := 5, x := 300, y := 400, c := 0x00 }] 5 = [0x11#8, 0x2C#8, 0x90#8, 0x00#8, 0x00#8] ∧
    buildFrame 0x5A 0x01 0 0 [{ slot := 0, x := 100, y := 200, c := 0x01 }] = v1 := by decide
/-- A configuration of other sizes (R7, R8): two slots of six bytes, so 15 bytes, the record's bytes in another order. -/
def smallConfig : Config :=
  { Config.block with
    nSlots := 2, fingerBytes := 6, frameBytes := 15, sizes := by decide,
    fingerLayout := { hi := 5, xLo := 4, yLo := 3, fingerChecksum := 0, reserved := 1 } }

/-- R60 and R61 with its numbers: record 1 starts at 7, the masks stand at 13, frame_checksum at 14. -/
theorem test_other_sizes :
    (sizeCheck smallConfig (v1.take 14)).toOption = none ∧
    ((sizeCheck smallConfig [0x5A#8, 0x01#8, 0#8, 0#8, 0x22#8, 0x33#8, 0x12#8, 0xFE#8, 0#8, 0#8, 0x56#8, 0x34#8, 0x47#8,
        0xA5#8, 0x7E#8]).toOption.map (decodeFrame smallConfig)) =
      some { packetId := 0x5A, fingers := #v[rec 1 0x33 2 0x22 0x01, rec 4 0x34 7 0x56 0xFE], keyMask := 5,
             proximityMask := 10, frameChecksum := 0x7E } := by decide

/-! ### The commands and the rows, one step each -/

/-- P3 step 1: slot 6 is at (2400, 1207), slot 9 at (4095, 4095); the masks are 0x5 and 0xA. -/
theorem test_frame_p3 : nextIs (exec (.frame p3) State.reset) (fun t =>
    t.slots[6] == at' 2400 1207 && t.slots[9] == at' 4095 4095 && t.report.any fun r =>
      r.transition[0] == .add && r.keyMask == 0x5#4 && r.proximityMask == 0xA#4 && r.events[3] == { slotIndex := 3, kind := .touching { x := 1200, y := 607 } }) = true := by
  decide
/-- V39: RESET with a 52-byte buffer attached, from STATUS 0x03 and slot 2 active. -/
theorem test_reset_v39 : nextIs (step { withCmd 0x02 .host (v1.take 52) with status := 0x03#8, slots := (withSlot 2 5 6).slots })
    (fun t => t.slots == State.reset.slots && readStatus t == 0x00#8 && t.report == none && t.outcome == some .ok) = true := by
  decide
/-- V37: `.cmd 0x00` from reset. -/
theorem test_reserved_v37 : nextIs (step (withCmd 0x00 .host [])) (fun t =>
    t.outcome == some (.fault (.illegalCommand 0x00#8)) && readStatus t == 0x02#8 && t.slots == State.reset.slots) = true := by
  decide
/-- V38: `.cmd 0xFF` with STATUS 0x01. -/
theorem test_reserved_v38 : nextIs (exec (.reservedCmd 0xFF) { State.reset with status := 0x01#8 }) (fun t =>
    readStatus t == 0x03#8) = true := by decide
/-- V40: FRAME with 52 bytes, slot 5 active. -/
theorem test_size_mismatch_v40 : nextIs (step { withCmd 0x01 .host (v1.take 52) with slots := (withSlot 5 300 400).slots })
    (fun t => t.slots[5] == at' 300 400 && readStatus t == 0x01#8 && t.report == none &&
      t.outcome == some (.fault (.sizeMismatch 52))) = true := by decide
/-- V32 and V33: slot 0 moves (UPDATE), slot 1 is lifted (RELEASE). -/
theorem test_touch_row : nextIs (exec (.frameclassTouch (tf 0x5A 0x01)) (withSlot 0 5 6)) (fun t =>
    t.slots[0] == at' 100 200 && t.report.any fun r => r.transition[0] == .update) = true := by decide
theorem test_touch_row_release : nextIs (exec (.frameclassTouch (tf 0x5A 0x01)) (withSlot 1 7 9)) (fun t =>
    t.slots[1] == Slot.empty && t.report.any fun r => r.transition[1] == .release) = true := by decide
/-- V35: the override releases slot 0 although its checksum is 01. -/
theorem test_touchEmpty_row : nextIs (exec (.frameclassTouchEmpty (tf 0x5A 0xFF)) (withSlot 0 7 9)) (fun t =>
    t.slots[0] == Slot.empty && t.report.any fun r =>
      r.transition[0] == .release && r.streamContinue && !r.anyTouching && r.frameClass == .touchEmpty) = true := by decide
/-- V3. -/
theorem test_nodata_row : nextIs (exec (.frameclassNodata (tf 0x00 0x01)) State.reset) (fun t =>
    t.report.any fun r => r.transition[0] == .idle && !r.streamContinue && r.events[0].kind == .released) = true := by decide
/-- V31: a touch that does not move is UPDATE. -/
theorem test_fingerActive_row : nextIs (exec (.fingerActive 4 (rec 0 5 0 6 1))
    { withSlot 4 5 6 with report := some (blankReport (tf 0x5A 0x01)) }) (fun t =>
    t.slots[4] == at' 5 6 && t.report.any fun r => r.transition[4] == .update && r.anyTouching) = true := by decide
/-- V33. -/
theorem test_fingerEmpty_row : nextIs (exec (.fingerEmpty 4 (rec 15 255 15 255 255))
    { withSlot 4 7 9 with report := some (blankReport (tf 0x5A 0x01)) }) (fun t =>
    t.slots[4] == Slot.empty && t.report.any fun r => r.transition[4] == .release && r.events[4].kind == .released) = true := by decide

/-! ### The host contract, one step each -/

/-- H1 step 4: an interrupt in Active does not bring the read forward. -/
theorem test_irq_active : nextIs (step { withEvent .irq with pending := true, dueTime := 20, now := 5, pollState := .active })
    (fun t => t.dueTime == 20 && t.pollState == .active) = true := by decide
/-- H2 step 4: a NODATA result does not cancel the read the interrupt made pending. -/
theorem test_nodata_keeps_pending : nextIs (step { withCmd 0x01 .worker v3 with
      executing := true, startCalled := true, pending := true, pollState := .scheduled })
    (fun t => t.pending && t.pollState == .scheduled && !t.executing) = true := by decide
/-- Overlapping commands are refused (R155). -/
theorem test_overlap : (match step (present [{ cmd := 0x01#8, issuer := .host }, { cmd := 0x02#8, issuer := .host }] v1 State.reset) with
    | .refused .overlappingIssue => true
    | _ => false) = true := by decide

/-! ### Table words -/

theorem test_table_words : decodeTableWord 8 0x02 = some .reset ∧ decodeTableWord 8 0x00 = some (.reservedCmd 0x00#8) ∧
    decodeTableWord 8 0x01 = some (.frame (List.replicate 53 0x00#8)) ∧ decodeTableWord 12 0x01 = none := by decide
theorem test_table_word_runs : nextIs (step (State.reset.withFetchWord 8 0x5A)) (fun t =>
    t.report.any fun r => r.frameClass == .touch && r.transition[0] == .add) = true := by decide

/-! ### Witnesses: each obligation's hypotheses, clause by clause -/

theorem witness_NibbleOrders : Config.block.nibbleOrder = .lowFirst ∧
    ({ Config.block with nibbleOrder := .highFirst } : Config).nibbleOrder = .highFirst := by decide
theorem witness_FieldOffsets : p3.length = 53 ∧ byteAt p3 50 = 0x00#8 ∧ byteAt p3 49 = 0xFE#8 := by decide
theorem witness_DecodeEncode : (Instr.frame []).wellFormed = true ∧ Instr.reset.wellFormed = true ∧
    (Instr.reservedCmd 0x00#8).wellFormed = true ∧ (Instr.reservedCmd 0x03#8).wellFormed = true ∧
    (Instr.frameclassTouch (tf 0x5A 0xFE)).wellFormed = true ∧ (Instr.frameclassTouchEmpty (tf 0x5A 0xFF)).wellFormed = true ∧
    (Instr.frameclassNodata (tf 0x5B 0xFF)).wellFormed = true ∧ (Instr.fingerActive 9 (rec 15 255 15 255 0xFE)).wellFormed = true ∧
    (Instr.fingerEmpty 0 (rec 0 0 0 0 0xFF)).wellFormed = true := by decide
theorem witness_EncodeDecodedFrame : v1.length = 53 ∧ byteAt v1 50 = 0xFF#8 := by decide
theorem witness_AnyLayoutRoundTrip :
    [Config.block.fingerLayout.hi, Config.block.fingerLayout.xLo, Config.block.fingerLayout.yLo,
      Config.block.fingerLayout.fingerChecksum].Nodup ∧
    [smallConfig.fingerLayout.hi, smallConfig.fingerLayout.xLo, smallConfig.fingerLayout.yLo,
      smallConfig.fingerLayout.fingerChecksum].Nodup := by decide
theorem witness_FrameFromParameters : p3.length = Config.block.frameBytes ∧ (p3.take 15).length = smallConfig.frameBytes ∧
    (p3.take 52).length ≠ Config.block.frameBytes ∧ p3.length ≠ smallConfig.frameBytes := by decide
/-- P3's slot 6 at (2400, 1207) and its slot 9 at (4095, 4095), above the documented 2047. -/
theorem witness_NoClamping : p3.length = 53 ∧
    (touchingAt p3 6 = true ∧ xAt p3 6 = (2400 : Coord).toNat ∧ yAt p3 6 = (1207 : Coord).toNat) ∧
    (touchingAt p3 9 = true ∧ xAt p3 9 = (4095 : Coord).toNat ∧ yAt p3 9 = (4095 : Coord).toNat) := by decide
theorem witness_OneFrameClass : (v1.length = 53 ∧ byteAt v1 0 = 0x5A#8 ∧ byteAt v1 52 ≠ 0xFF#8) ∧
    (v2.length = 53 ∧ byteAt v2 0 = 0x5A#8 ∧ byteAt v2 52 = 0xFF#8) ∧ (v3.length = 53 ∧ byteAt v3 0 ≠ 0x5A#8) := by decide
theorem witness_FrameSlots : v1.length = 53 ∧ touchingAt v1 0 = true ∧ touchingAt v1 9 = false := by decide
theorem witness_FrameEvents : v2.length = 53 ∧ touchingAt v2 0 = false := by decide
theorem witness_FrameTransitions : p3.length = 53 ∧
    ((withSlot 0 5 6).slots[0].active, touchingAt v1 0) = (true, true) ∧
    ((withSlot 1 5 6).slots[0].active, touchingAt v1 0) = (false, true) ∧
    ((withSlot 1 5 6).slots[1].active, touchingAt v1 1) = (true, false) ∧
    ((withSlot 1 5 6).slots[2].active, touchingAt v1 2) = (false, false) := by decide
theorem witness_FrameAnyTouching : v3.length = 53 ∧
    nextIs (exec (.frame v3) State.reset) (fun t => t.report.any fun r => r.frameClass != .touch) = true := by decide
theorem witness_FrameClassAndStream : v1.length = 53 ∧ (byteAt v1 0 = 0x5A#8 ∧ byteAt v1 52 ≠ 0xFF#8 ∧
      byteAt v1 (4 + 5 * 0) ≠ 0xFF#8 ∧ byteAt v1 (4 + 5 * 9) = 0xFF#8) ∧
    (byteAt v2 0 = 0x5A#8 ∧ byteAt v2 52 = 0xFF#8) ∧ byteAt v3 0 ≠ 0x5A#8 := by decide
theorem witness_MasksPassThrough : p3.length = 53 ∧ (p3.set 51 0x00#8).length = 53 ∧
    (∀ k, k < 53 → k ≠ 51 → byteAt p3 k = byteAt (p3.set 51 0x00#8) k) ∧ byteAt p3 51 ≠ byteAt (p3.set 51 0x00#8) 51 := by decide
theorem witness_GlobalOverride : (v2.length = 53 ∧ byteAt v2 52 = 0xFF#8) ∧ (v3.length = 53 ∧ byteAt v3 0 ≠ 0x5A#8) := by decide
/-- V21 and V22 together: reserved bytes changed, and an untouched slot given coordinates. -/
theorem witness_IgnoredBytes : v1.length = 53 ∧ ((v1.set 5 0xAB#8).set 6 0xF0#8).length = 53 ∧
    SameForOutputs v1 ((v1.set 5 0xAB#8).set 6 0xF0#8) ∧ v1 ≠ (v1.set 5 0xAB#8).set 6 0xF0#8 :=
  ⟨by decide, by decide, ⟨by decide, by decide, by decide, by decide, by decide, by decide, by decide⟩, by decide⟩
theorem witness_NoChecksumArithmetic : v1.length = 53 ∧ ((v1.set 52 0x7E#8).set 4 0x00#8).length = 53 ∧
    SameUpToChecksums v1 ((v1.set 52 0x7E#8).set 4 0x00#8) ∧ v1 ≠ (v1.set 52 0x7E#8).set 4 0x00#8 :=
  ⟨by decide, by decide, ⟨by decide, by decide, by decide⟩, by decide⟩
theorem witness_WellSizedNeverFaults : (List.replicate 53 0x00#8).length = 53 ∧ (List.replicate 53 0xFF#8).length = 53 := by decide
theorem witness_FrameForgetsThePast : v1.length = 53 ∧ (withSlot 0 5 6).slots ≠ State.reset.slots := by decide
theorem witness_ReportIsSnapshot : p3.length = 53 ∧ touchingAt p3 9 = true := by decide
theorem witness_NoIdentityAcrossFrames : v1.length = 53 ∧ v2.length = 53 ∧ (withSlot 0 5 6).slots[0].active = true ∧
    touchingAt v2 0 = false ∧ touchingAt v1 0 = true := by decide
theorem witness_SizeMismatch : ([] : List Byte).length ≠ 53 ∧ (v1.take 52).length = 52 ∧ (v1 ++ [0x00#8]).length = 54 := by decide
theorem witness_ResetCommand : (withCmd 0x02#8 .host v1).port = [{ cmd := 0x02#8, issuer := .host }] := by decide
theorem witness_IllegalCommand : (0x00#8 : Byte) ≠ 0x01#8 ∧ (0x00#8 : Byte) ≠ 0x02#8 ∧ (0x03#8 : Byte) ≠ 0x02#8 ∧
    (withCmd 0x03#8 .host v1).port = [{ cmd := 0x03#8, issuer := .host }] := by decide
theorem witness_FaultPrecedence : (withCmd 0x00#8 .host []).port = [{ cmd := 0x00#8, issuer := .host }] ∧
    (Memory.bytes (withCmd 0x01#8 .host (v1.take 52)).buf).length ≠ 53 ∧
    (Memory.bytes (withCmd 0x01#8 .host v1).buf).length = 53 ∧
    (withCmd 0x02#8 .host []).port = [{ cmd := 0x02#8, issuer := .host }] := by decide
theorem witness_FaultsArePrecise :
    nextIs (step (withCmd 0x01#8 .host [])) (fun t => t.outcome == some (.fault (.sizeMismatch 0))) = true ∧
    nextIs (step (withCmd 0xFF#8 .host [])) (fun t => t.outcome == some (.fault (.illegalCommand 0xFF#8))) = true := by decide
theorem witness_NoEvents : (v1 ++ [0x00#8]).length ≠ 53 := by decide
theorem witness_TouchRow : (tf 0x5A 0x01).fingers[0].fingerChecksum ≠ 0xFF#8 ∧
    (tf 0x5A 0x01).fingers[9].fingerChecksum = 0xFF#8 := by decide
theorem witness_FrameRunsItsRow : v1.length = 53 ∧ v2.length = 53 ∧ v3.length = 53 := by decide
theorem witness_FingerActive : State.reset.report = none ∧
    ({ State.reset with report := some (blankReport (tf 0x5A 0x01)) } : State).report = some (blankReport (tf 0x5A 0x01)) ∧
    (9 : SlotIndex) ≠ 0 := by decide
theorem witness_FingerEmpty : (withSlot 9 1 2).report = none ∧
    ({ withSlot 9 1 2 with report := some (blankReport (tf 0x5A 0x01)) } : State).report = some (blankReport (tf 0x5A 0x01)) ∧
    (8 : SlotIndex) ≠ 9 := by decide
theorem witness_InstructionFrame : ∃ t, exec (.fingerEmpty 0 (rec 0 0 0 0 0xFF)) State.reset = .next t := ⟨_, rfl⟩
theorem witness_OnlyCommandsWriteSlots :
    nextIs (step (withCmd 0x01#8 .host v1)) (fun t => t.slots != (withCmd 0x01#8 .host v1).slots) = true := by decide
theorem witness_StatusSticky :
    nextIs (step { withCmd 0x00#8 .host [] with status := 0x01#8 }) (fun t => t.status == 0x03#8) = true ∧
    nextIs (step { withEvent .irq with status := 0x02#8 }) (fun t => t.status == 0x02#8) = true ∧
    nextIs (step { withCmd 0x02#8 .host [] with status := 0x03#8 }) (fun t => readStatus t == 0x00#8) = true ∧
    readStatus { State.reset with status := 0x03#8 } = 0x03#8 := by decide
theorem witness_StatusSticky_inv : BlockInv { State.reset with status := 0x03#8 } :=
  ⟨by unfold Slot.consistent; decide, by decide, by decide, (by intro r h; cases h), (by intro r h; cases h), by decide⟩
theorem witness_SinkGetsEveryReport :
    nextIs (step (withCmd 0x01#8 .host v1)) (fun t => t.sink.length == 1) = true ∧
    nextIs (step (withCmd 0x01#8 .host (v1.take 52))) (fun t => t.sink.length == 0) = true ∧
    nextIs (step (withEvent .irq)) (fun t => t.sink.length == 0) = true := by decide
theorem witness_StepRunsTheCommand : (withCmd 0x01#8 .worker v1).port = [{ cmd := 0x01#8, issuer := .worker }] := by decide
theorem witness_IssueThenRun : (withEvent (scriptFrame v1)).port = [] ∧
    (withEvent (scriptFrame v1)).events = [.issue [0x01#8] v1] ∧ (withEvent (scriptFrame v1)).stopCalled = false ∧
    ({ withEvent (scriptFrame v1) with executing := true, stopCalled := true } : State).executing = true := by decide
theorem witness_OverlapRefused : (present [{ cmd := 0x01#8, issuer := .host }, { cmd := 0x01#8, issuer := .worker }] v1 State.reset).port =
    { cmd := 0x01#8, issuer := .host } :: { cmd := 0x01#8, issuer := .worker } :: [] := by decide
theorem witness_IdleForever : ((withSlot 3 5 6).port = [] ∧ (withSlot 3 5 6).events = []) ∧
    (withEvent (.readOk v1)).port = [] ∧
    nextIs (step { withEvent (.readOk v1) with executing := true }) (fun t => t.port.length == 1) = true := by decide
/-- A stopped host whose block still holds a contact. -/
def stopped : State := { withSlot 3 5 6 with startCalled := true, stopCalled := true }
theorem witness_QuietAfterStop : Inv stopped ∧ stopped.stopCalled = true ∧ stopped.executing = false ∧ stopped.port = [] ∧
    Host.Core.run Sys2Proof.core 2 stopped = .next stopped :=
  ⟨⟨⟨by unfold Slot.consistent; decide, by decide, by decide, (by intro r h; cases h), (by intro r h; cases h), by decide⟩,
    ⟨by decide, by decide, by decide, by decide, by decide, by decide, (by intro c h; cases h)⟩⟩,
    by decide, by decide, by decide, rfl⟩
theorem witness_InvKept : Inv stopped ∧ step stopped = .next stopped := ⟨witness_QuietAfterStop.1, rfl⟩
theorem witness_InterruptRequestsOneRead : (withEvent .irq).port = [] ∧ (withEvent .irq).events = [.irq] ∧
    ((withEvent .irq).startCalled = true ∧ (withEvent .irq).stopCalled = false ∧ (withEvent .irq).pending = false) ∧
    ({ withEvent .irq with pending := true } : State).pending = true ∧
    ({ State.reset with events := [.irq] } : State).startCalled = false := by decide
theorem witness_WorkerStartsDueRead : (withEvent .workerStart).port = [] ∧ (withEvent .workerStart).events = [.workerStart] ∧
    (({ withEvent .workerStart with pending := true, dueTime := 20, now := 20 } : State).dueTime ≤ 20) ∧
    (({ withEvent .workerStart with pending := true, dueTime := 20, now := 19 } : State).now < 20) := by decide
theorem witness_ReadReachesTheSink : ({ withEvent (.readOk v1) with executing := true } : State).port = [] ∧
    ({ withEvent (.readOk v1) with executing := true } : State).events = [.readOk v1] ∧
    ({ withEvent (.readOk v1) with executing := true } : State).executing = true ∧ v1.length = 53 := by decide
theorem witness_CycleEndRequests : (withCmd 0x01#8 .worker v2).port = [{ cmd := 0x01#8, issuer := .worker }] ∧
    (Memory.bytes (withCmd 0x01#8 .worker v2).buf).length = 53 ∧
    ((withCmd 0x01#8 .worker v2).pending = false ∧ (withCmd 0x01#8 .worker v2).stopCalled = false ∧
      byteAt (Memory.bytes (withCmd 0x01#8 .worker v2).buf) 0 = 0x5A#8) ∧
    byteAt (Memory.bytes (withCmd 0x01#8 .worker v3).buf) 0 ≠ 0x5A#8 ∧
    ({ withCmd 0x01#8 .worker v2 with pending := true } : State).pending = true ∧
    ({ withCmd 0x01#8 .worker v2 with stopCalled := true } : State).pending = false := by decide
theorem witness_SizeMismatchStopsTheHost : (withCmd 0x01#8 .worker (v1.take 52)).port = [{ cmd := 0x01#8, issuer := .worker }] ∧
    (Memory.bytes (withCmd 0x01#8 .worker (v1.take 52)).buf).length ≠ 53 := by decide
theorem witness_TransportFailure : ({ withEvent .readFail with executing := true } : State).port = [] ∧
    ({ withEvent .readFail with executing := true } : State).events = [.readFail] ∧
    ({ withEvent .readFail with executing := true } : State).executing = true := by decide
theorem witness_WaitAdvancesTime : (withEvent (.wait 20)).port = [] ∧ (withEvent (.wait 20)).events = [.wait 20] := by decide
/-- H1: after WAIT 20 a read requested at the poll interval is due. -/
theorem test_wait : nextIs (step { withEvent (.wait 20) with pending := true, dueTime := 25, now := 5, pollState := .active })
    (fun t => t.now == 25 && t.pending && !t.executing) = true := by decide
theorem witness_LifecycleCalls : (withEvent .start).port = [] ∧ (withEvent .start).events = [.start] ∧
    (withEvent .start).startCalled = true ∧ ({ withEvent .start with startCalled := false } : State).startCalled = false ∧
    (withEvent .stop).events = [.stop] ∧ (withEvent .stop).stopCalled = false ∧
    ({ withEvent .stop with stopCalled := true } : State).stopCalled = true := by decide

end Sys2Proof.Tests
end

section
/-! PROOFS. Encoding and decoding under every configuration (rules R7, R8, R60 to R63, R80, R81): where a frame's bytes stand, what each decoded field is read from, and the round trip of records and frames. -/

namespace Sys2Proof.Machine

/-! ### Offsets from the parameters (rules R60, R61) -/

theorem recordOffset_eq (cfg : Config) (i k : Nat) : recordOffset cfg i k = 1 + i * cfg.fingerBytes + k := by
  rw [recordOffset, Nat.mul_comm]

theorem maskOffset_eq (cfg : Config) : maskOffset cfg = 1 + cfg.nSlots * cfg.fingerBytes :=
  recordOffset_eq cfg cfg.nSlots 0

theorem checksumOffset_eq (cfg : Config) : checksumOffset cfg = 2 + cfg.nSlots * cfg.fingerBytes := by
  rw [checksumOffset, maskOffset_eq]; omega

/-! ### The bytes of a frame and of its records -/

/-- A buffer of the frame's length passes the size check, and the frame holds the buffer's bytes (rules R40, R80). -/
theorem exists_frame_of_length {cfg : Config} {buf : List Byte} (h : buf.length = cfg.frameBytes) :
    ∃ fr : Frame cfg, sizeCheck cfg buf = .ok fr ∧ ∀ (k : Nat) (hk : k < cfg.frameBytes), fr[k] = byteAt buf k :=
  ⟨_, sizeCheck_of_length h, getElem_toFrame h⟩

/-- Byte `k` of record `i` is the buffer's byte `k` places after the start of that record. -/
theorem frameRecord_getElem_eq_byteAt {cfg : Config} {buf : List Byte} {fr : Frame cfg}
    (h : ∀ (k : Nat) (hk : k < cfg.frameBytes), fr[k] = byteAt buf k) (i : Fin cfg.nSlots) (k : Fin cfg.fingerBytes) :
    (frameRecord cfg fr i)[k] = byteAt buf (1 + i.val * cfg.fingerBytes + k.val) := by
  simp [frameRecord, h, recordOffset_eq]

@[simp] theorem decodeFrame_fingers_getElem (cfg : Config) (fr : Frame cfg) (i : Fin cfg.nSlots) :
    (decodeFrame cfg fr).fingers[i] = decodeFinger cfg (frameRecord cfg fr i) := by
  simp [decodeFrame]

/-! ### Packed bytes under both nibble orders (rules R62, R63) -/

/-- With the second-listed field above the first-listed one, a packed byte comes back as it stands when the order is
`lowFirst`, and with its halves exchanged when it is `highFirst`. -/
theorem joinNibbles_second_first (o : NibbleOrder) (b : Byte) :
    joinNibbles (secondField o b) (firstField o b) =
      match o with
      | .lowFirst => b
      | .highFirst => b.rotateLeft 4 := by
  cases o with
  | lowFirst => exact joinNibbles_nibbles b
  | highFirst => revert b; decide

/-! ### Decoding what was encoded (rules R60 to R63) -/

/-- A record survives when no two of its four named fields share a place. -/
theorem decodeFinger_encodeFinger {cfg : Config}
    (hnd : [cfg.fingerLayout.hi, cfg.fingerLayout.xLo, cfg.fingerLayout.yLo, cfg.fingerLayout.fingerChecksum].Nodup)
    (r : FingerRecord) : decodeFinger cfg (encodeFinger cfg r) = r := by
  simp only [List.nodup_cons, List.mem_cons, List.not_mem_nil, or_false, not_or] at hnd
  obtain ⟨⟨hiXLo, hiYLo, hiChk⟩, ⟨xLoYLo, xLoChk⟩, yLoChk, -⟩ := hnd
  simp [decodeFinger, encodeFinger, Ne.symm hiXLo, Ne.symm hiYLo, Ne.symm hiChk, Ne.symm xLoYLo, Ne.symm xLoChk,
    Ne.symm yLoChk]

/-- Record `i` of an encoded frame is the encoding of the frame's record `i`. -/
@[simp] theorem frameRecord_encodeFrame (cfg : Config) (f : TouchFrameOf cfg.nSlots) (i : Fin cfg.nSlots) :
    frameRecord cfg (encodeFrame cfg f) i = encodeFinger cfg f.fingers[i] := by
  refine Vector.ext fun k hk => ?_
  simp [frameRecord, encodeFrame, encodeFrameByte_recordOffset cfg f i.isLt hk]

/-- A frame survives when every record does. -/
theorem decodeFrame_encodeFrame {cfg : Config} (hrec : ∀ r, decodeFinger cfg (encodeFinger cfg r) = r)
    (f : TouchFrameOf cfg.nSlots) : decodeFrame cfg (encodeFrame cfg f) = f := by
  have hfingers : (Vector.ofFn fun i => decodeFinger cfg (frameRecord cfg (encodeFrame cfg f) i)) = f.fingers :=
    Vector.ext fun i hi => by simp [hrec]
  simp only [decodeFrame, hfingers]
  simp [encodeFrame]

/-- Settles O7: the record's four places do not collide, and each record of an encoded frame is an encoded record. -/
theorem anyLayoutRoundTrip : Obligations.AnyLayoutRoundTrip := by
  intro cfg hnd
  exact ⟨decodeFinger_encodeFinger hnd, decodeFrame_encodeFrame (decodeFinger_encodeFinger hnd)⟩

/-! ### Every field by its place (rules R60 to R63, R81) -/

section
variable {cfg : Config} {buf : List Byte} {fr : Frame cfg}
  (h : ∀ (k : Nat) (hk : k < cfg.frameBytes), fr[k] = byteAt buf k)
include h

theorem decodeFrame_frameChecksum_eq_byteAt :
    (decodeFrame cfg fr).frameChecksum = byteAt buf (2 + cfg.nSlots * cfg.fingerBytes) := by
  rw [← checksumOffset_eq]
  exact h _ (checksumOffset_lt cfg)

/-- The two masks come from the byte after the last record (rule R63). -/
theorem joinNibbles_masks_eq_byteAt :
    joinNibbles (decodeFrame cfg fr).proximityMask (decodeFrame cfg fr).keyMask =
      match cfg.nibbleOrder with
      | .lowFirst => byteAt buf (1 + cfg.nSlots * cfg.fingerBytes)
      | .highFirst => (byteAt buf (1 + cfg.nSlots * cfg.fingerBytes)).rotateLeft 4 := by
  rw [← maskOffset_eq, ← h _ (maskOffset_lt cfg)]
  exact joinNibbles_second_first _ _

/-- The upper parts of a record's two coordinates come from its byte `hi` (rule R62). -/
theorem joinNibbles_his_eq_byteAt (i : Fin cfg.nSlots) :
    joinNibbles (decodeFinger cfg (frameRecord cfg fr i)).xHi (decodeFinger cfg (frameRecord cfg fr i)).yHi =
      match cfg.nibbleOrder with
      | .lowFirst => byteAt buf (1 + i.val * cfg.fingerBytes + cfg.fingerLayout.hi.val)
      | .highFirst => (byteAt buf (1 + i.val * cfg.fingerBytes + cfg.fingerLayout.hi.val)).rotateLeft 4 := by
  rw [← frameRecord_getElem_eq_byteAt h i]
  exact joinNibbles_second_first _ _

end

/-- Settles O59: the sizes are the configuration's own fields; a frame holds the bytes of its buffer, and each decoded
field is read from the byte at its place. -/
theorem frameFromParameters : Obligations.FrameFromParameters := by
  refine ⟨⟨block_nSlots, block_frameBytes, block_fingerBytes, block_coordBits⟩, fun cfg =>
    ⟨cfg.sizes, fun _ => sizeCheck_of_length_ne, fun buf hlen => ?_⟩⟩
  obtain ⟨fr, hok, hbytes⟩ := exists_frame_of_length hlen
  refine ⟨fr, hok, hbytes 0 _, decodeFrame_frameChecksum_eq_byteAt hbytes, joinNibbles_masks_eq_byteAt hbytes, fun i => ?_⟩
  have hrecord := frameRecord_getElem_eq_byteAt hbytes i
  rw [decodeFrame_fingers_getElem]
  exact ⟨hrecord _, hrecord _, hrecord _, joinNibbles_his_eq_byteAt hbytes i⟩

end Sys2Proof.Machine
end

section
/-! PROOFS. What the command on the port can do, and what a step does to the block: the step's dispatch, STATUS and the EventSink (rules R24, R27, R30, R45, R51, R70, R126). -/

namespace Sys2Proof.Machine

/-! ### The command on the port (rules R70 to R72, R100, R108, R122) -/

/-- A command word does one of four things, by the word and then by the buffer's length. -/
theorem exec_decodeCommand_cases {cmd : Byte} {buf : List Byte} {s t : State}
    (h : exec (decodeCommand cmd buf) s = .next t) :
    (cmd = 0x01#8 ∧ buf.length = 53 ∧
      ∃ fr, sizeCheck Config.block buf = .ok fr ∧ t = runFrame (decodeFrame Config.block fr) s) ∨
    (cmd = 0x01#8 ∧ buf.length ≠ 53 ∧ t = raise (.sizeMismatch buf.length) s) ∨
    (cmd = 0x02#8 ∧
      t = completeSilent { s with slots := Vector.replicate Config.block.nSlots Slot.empty, status := 0x00#8 }) ∨
    (cmd ≠ 0x01#8 ∧ cmd ≠ 0x02#8 ∧ t = raise (.illegalCommand cmd) s) := by
  by_cases h1 : cmd = 0x01#8
  · subst h1
    rw [decodeCommand_frame] at h
    by_cases hlen : buf.length = 53
    · rw [execFrame_of_length hlen] at h
      cases h
      exact .inl ⟨rfl, hlen, _, sizeCheck_of_length hlen, rfl⟩
    · rw [execFrame_of_length_ne hlen] at h
      cases h
      exact .inr (.inl ⟨rfl, hlen, rfl⟩)
  · by_cases h2 : cmd = 0x02#8
    · subst h2
      cases h
      exact .inr (.inr (.inl ⟨rfl, rfl⟩))
    · rw [decodeCommand_reserved h1 h2] at h
      cases h
      exact .inr (.inr (.inr ⟨h1, h2, rfl⟩))

/-- A step leaves the block as it is, or makes of it what the command on the port makes of it: the end of a read cycle
adds nothing (rule R52). -/
theorem step_block_cases {s t : State} (h : step s = .next t) :
    (s.port = [] ∧ SameBlock s t) ∨
    (∃ c u, s.port = [c] ∧ exec (decodeCommand c.cmd (Memory.bytes s.buf)) { s with port := [] } = .next u ∧
      SameBlock u t) := by
  obtain ⟨hp, -, rfl⟩ | ⟨e, es, hp, -, he⟩ | ⟨c, u, hp, hu, rfl⟩ := step_cases h
  · exact .inl ⟨hp, SameBlock.refl _⟩
  · obtain ⟨hslots, hstatus, houtcome, hreport, hsink⟩ := hostEvent_sameBlock he
    exact .inl ⟨hp, hslots, hstatus, houtcome, hreport, hsink⟩
  · refine .inr ⟨c, u, hp, hu, ?_⟩
    split
    · exact completeCycle_sameBlock u
    · exact SameBlock.refl u

/-- Settles O43: with one command on the port, the step is the command's execution and what follows it. -/
theorem stepRunsTheCommand : Obligations.StepRunsTheCommand := by
  intro c s hp
  rw [step, hp]
  rfl

/-! ### STATUS (rules R24, R123, R126) -/

/-- Where bits [7:2] are 0, the host reads STATUS whole. -/
theorem readStatus_eq_status {s : State} (h : s.status &&& 0xFC#8 = 0#8) : readStatus s = s.status := by
  calc readStatus s = s.status &&& 0x03#8 ||| s.status &&& 0xFC#8 := by rw [h, BitVec.or_zero]; rfl
    _ = s.status &&& (0x03#8 ||| 0xFC#8) := BitVec.and_or_distrib_left.symm
    _ = s.status := BitVec.and_allOnes

/-- Settles O41: a fault only adds its bit, a FRAME and the environment keep STATUS, and RESET clears it. -/
theorem statusSticky : Obligations.StatusSticky := by
  refine ⟨fun s => ⟨?_, ?_, fun hinv => readStatus_eq_status hinv.status⟩, fun s t h => ?_⟩
  · exact BitVec.and_assoc ..
  · exact (BitVec.and_assoc ..).trans BitVec.and_zero
  · obtain ⟨hp, hb⟩ | ⟨c, u, hp, hu, hb⟩ := step_block_cases h
    · simp [hp, hb.status]
    · obtain ⟨hc, -, fr, -, rfl⟩ | ⟨hc, -, rfl⟩ | ⟨hc, rfl⟩ | ⟨-, hc, rfl⟩ := exec_decodeCommand_cases hu
      · simp [hp, hc, hb.status, runFrame]
      · simp [hp, hc, hb.status, ← BitVec.or_assoc]
      · simp [hp, hc, hb.status, readStatus]
      · simp [hp, hc, hb.status, ← BitVec.or_assoc]

/-! ### The EventSink (rules R30, R51) -/

/-- Settles O42: of the four things a command can do, only a FRAME on 53 bytes emits, and it emits the report it leaves
on the port. -/
theorem sinkGetsEveryReport : Obligations.SinkGetsEveryReport := by
  intro s t h
  obtain ⟨hp, hb⟩ | ⟨c, u, hp, hu, hb⟩ := step_block_cases h
  · simp [hp, hb.sink]
  · obtain ⟨hc, hlen, fr, -, rfl⟩ | ⟨hc, hlen, rfl⟩ | ⟨hc, rfl⟩ | ⟨hc, -, rfl⟩ := exec_decodeCommand_cases hu
    · simp [hp, hc, hlen, hb.report, hb.sink, runFrame]
    · simp [hp, hlen, hb.sink]
    · simp [hp, hc, hb.sink]
    · simp [hp, hc, hb.sink]

end Sys2Proof.Machine
end

section
/-! PROOFS. Every step keeps the invariant: the block's part along the four things a command can do, the host contract's part along the events of the environment and the end of a read cycle (rules R21, R24, R27, R40, R110, R130 to R139). -/

namespace Sys2Proof.Machine

/-! ### The block's part (rules R21, R24, R27, R40, R110) -/

/-- What keeps the block keeps its invariant, whatever canonical buffer the host supplies meanwhile. -/
theorem BlockInv.of_sameBlock {s t : State} (h : BlockInv s) (hb : SameBlock s t) (hbuf : Memory.wf t.buf = true) :
    BlockInv t := by
  obtain ⟨hslots, hstatus, houtcome, hreport, hsink⟩ := hb
  constructor
  · rw [hslots]; exact h.slots
  · rw [hstatus]; exact h.status
  · rw [hreport, houtcome]; exact h.reported
  · rw [hreport, hslots]; exact h.snapshot
  · rw [hreport, hsink]; exact h.delivered
  · exact hbuf

/-- With no report on the port, nothing is asked of the ports. -/
theorem BlockInv.of_no_report {s : State} (hslots : ∀ i : SlotIndex, s.slots[i].consistent)
    (hstatus : s.status &&& 0xFC#8 = 0#8) (hreport : s.report = none) (hbuf : Memory.wf s.buf = true) : BlockInv s where
  slots := hslots
  status := hstatus
  reported := by simp [hreport]
  snapshot := by simp [hreport]
  delivered := by simp [hreport]
  buffer := hbuf

/-- No fault's bit is a reserved one. -/
theorem statusBit_and_reserved (f : CmdFault) : f.statusBit &&& 0xFC#8 = 0#8 := by
  cases f <;> simp [CmdFault.statusBit, errSizeBit, errCmdBit]

theorem BlockInv.raise {s : State} (h : BlockInv s) (f : CmdFault) : BlockInv (raise f s) := by
  refine .of_no_report h.slots ?_ rfl h.buffer
  rw [raise_status, BitVec.and_or_distrib_right, h.status, statusBit_and_reserved, BitVec.or_self]

@[simp] theorem Slot.consistent_ofContact (c : Option Pos) : (Slot.ofContact c).consistent := by
  simp [Slot.consistent]

/-- The report of a frame shows exactly the slots the frame leaves (rules R103, R106). -/
theorem snapshot_frameReport (f : TouchFrame) (cls : FrameClass) (continues : Bool) (slots : PerSlot Slot)
    (cs : PerSlot (Option Pos)) : Snapshot (frameReport f cls continues slots cs) (trackedSlots cs) where
  indices i := by simp [frameReport]
  kinds i := by simp [frameReport]
  any := by simp [frameReport, anyTouchingOf_eq_true]

theorem BlockInv.trackFrame {s : State} (h : BlockInv s) (f : TouchFrame) (cls : FrameClass) (continues : Bool)
    (cs : PerSlot (Option Pos)) : BlockInv (trackFrame f cls continues cs s) where
  slots i := by simp
  status := h.status
  reported _ := rfl
  snapshot r hr := by cases hr; exact snapshot_frameReport ..
  delivered r hr := by cases hr; simp
  buffer := h.buffer

/-- Every command keeps the block's invariant. -/
theorem BlockInv.exec_decodeCommand {cmd : Byte} {buf : List Byte} {s t : State} (h : BlockInv s)
    (ht : exec (decodeCommand cmd buf) s = .next t) : BlockInv t := by
  obtain ⟨-, -, fr, -, rfl⟩ | ⟨-, -, rfl⟩ | ⟨-, rfl⟩ | ⟨-, -, rfl⟩ := exec_decodeCommand_cases ht
  · exact h.trackFrame ..
  · exact h.raise _
  · exact .of_no_report (fun i => by simp [Slot.consistent, Slot.empty]) (by simp) rfl h.buffer
  · exact h.raise _

/-! ### The frame buffer outside the commands (rule R40) -/

theorem failCycle_buf (s : State) : (failCycle s).buf = s.buf := by
  unfold failCycle settle; split <;> rfl

theorem completeCycle_buf (s : State) : (completeCycle s).buf = s.buf := by
  unfold completeCycle requestRead settle
  split
  · rfl
  · split <;> split <;> rfl
  · split <;> rfl

/-- The environment keeps the buffer or supplies another, and both are canonical. -/
theorem hostEvent_wf_buf {e : HostEvent} {s t : State} (h : hostEvent e s = .next t) (hbuf : Memory.wf s.buf = true) :
    Memory.wf t.buf = true := by
  cases e <;> simp only [hostEvent] at h
  case issue => split at h <;> cases h; exact Memory.wf_ofBytes _
  case irq => cases h; unfold interrupt; split <;> exact hbuf
  case wait => cases h; exact hbuf
  case workerStart => cases h; unfold startCycle; split <;> exact hbuf
  case readOk => split at h <;> cases h; exact Memory.wf_ofBytes _
  case readFail => split at h <;> cases h; rw [failCycle_buf]; exact hbuf
  case start => split at h <;> cases h; exact hbuf
  case stop => split at h <;> cases h; exact hbuf

/-! ### The host contract's part: commands (rules R44, R52) -/

theorem trackSlot_sameSurroundings (i : SlotIndex) (c : Option Pos) (s : State) :
    SameSurroundings s (trackSlot i c s) := by
  constructor <;> intros <;> rfl

theorem trackFrame_sameSurroundings (f : TouchFrame) (cls : FrameClass) (continues : Bool)
    (cs : PerSlot (Option Pos)) (s : State) : SameSurroundings s (trackFrame f cls continues cs s) := by
  constructor <;> intros <;> rfl

theorem raise_sameSurroundings (f : CmdFault) (s : State) : SameSurroundings s (raise f s) := by
  constructor <;> intros <;> rfl

/-- No instruction writes the host contract's state, the port or the buffer. -/
theorem exec_sameSurroundings {i : Instr} {s t : State} (h : exec i s = .next t) : SameSurroundings s t := by
  cases i with
  | frame buf =>
    simp only [exec, execFrame] at h
    split at h <;> cases h
    · exact raise_sameSurroundings ..
    · exact trackFrame_sameSurroundings ..
  | reset => cases h; constructor <;> intros <;> rfl
  | reservedCmd => cases h; exact raise_sameSurroundings ..
  | frameclassTouch | frameclassTouchEmpty | frameclassNodata => cases h; exact trackFrame_sameSurroundings ..
  | fingerActive | fingerEmpty => cases h; exact trackSlot_sameSurroundings ..

theorem HostInv.of_sameSurroundings {s t : State} (h : HostInv s) (hs : SameSurroundings s t) : HostInv t := by
  constructor
  · rw [hs.pending, hs.pollState]; exact h.pendingShown
  · rw [hs.pending, hs.pollState, hs.executing]; exact h.idleShown
  · rw [hs.pending, hs.pollState, hs.dueTime, hs.now]; exact h.scheduledDue
  · rw [hs.pending, hs.pollState, hs.dueTime, hs.now]; exact h.activeDue
  · rw [hs.pending, hs.executing, hs.startCalled]; exact h.started
  · rw [hs.pending, hs.pollState, hs.stopCalled]; exact h.stopped
  · rw [hs.port, hs.executing]; exact h.workerCommand

/-! ### The host contract's part: its operations (rules R130 to R139) -/

/-- An empty port holds no worker's command. -/
theorem HostInv.empty_port {s : State} (h : HostInv s) : HostInv { s with port := [] } :=
  { h with workerCommand := by simp }

theorem HostInv.present {s : State} (h : HostInv s) {cs : List Issue} (buf : List Byte)
    (hcs : ∀ c ∈ cs, c.issuer = .worker → s.executing = true) : HostInv (present cs buf s) :=
  { h with workerCommand := hcs }

/-- A pending read shows that `stop()` has not been called (rule R139). -/
theorem HostInv.stopCalled_of_pending {s : State} (h : HostInv s) (hp : s.pending = true) : s.stopCalled = false := by
  refine Bool.eq_false_iff.mpr fun hstop => ?_
  simp [(h.stopped hstop).1] at hp

theorem HostInv.interrupt {s : State} (h : HostInv s) : HostInv (interrupt s) := by
  unfold Machine.interrupt
  split
  next hc =>
    simp only [armed, Bool.and_eq_true, Bool.not_eq_true'] at hc
    obtain ⟨⟨hstart, hstop⟩, -⟩ := hc
    exact { h with
      pendingShown := by simp
      idleShown := by simp
      scheduledDue := by simp
      activeDue := by simp
      started := fun _ => hstart
      stopped := by simp [hstop] }
  next => exact h

theorem HostInv.wait {s : State} (h : HostInv s) (t : Nat) : HostInv { s with now := s.now + t } :=
  { h with
    scheduledDue := fun hp hs => (h.scheduledDue hp hs).trans (Nat.le_add_right ..)
    activeDue := fun hp hs => (h.activeDue hp hs).trans (Nat.add_le_add_right (Nat.le_add_right ..) _) }

theorem HostInv.startCycle {s : State} (h : HostInv s) : HostInv (startCycle s) := by
  unfold Machine.startCycle
  split
  next hc =>
    simp only [Bool.and_eq_true] at hc
    obtain ⟨⟨hp, -⟩, -⟩ := hc
    exact { h with
      pendingShown := by simp
      idleShown := by simp
      scheduledDue := by simp
      activeDue := by simp
      started := fun _ => h.started (.inl hp)
      stopped := by simp [h.stopCalled_of_pending hp]
      workerCommand := fun _ _ _ => rfl }
  next => exact h

theorem HostInv.start {s : State} (h : HostInv s) : HostInv { s with startCalled := true } :=
  { h with started := fun _ => rfl }

theorem HostInv.stopHost {s : State} (h : HostInv s) : HostInv (stopHost s) where
  pendingShown := by simp
  idleShown := by simp
  scheduledDue := by simp
  activeDue := by simp
  started hr := h.started (.inr (by simpa using hr))
  stopped _ := ⟨rfl, rfl⟩
  workerCommand := h.workerCommand

/-! ### The end of a read cycle (rules R132, R133, R137) -/

/-- A cycle may end where no read is pending only if PollState says so. -/
theorem HostInv.endCycle {s : State} (h : HostInv s) (hport : s.port = [])
    (hidle : s.pending = false → s.pollState = .idle) : HostInv { s with executing := false } :=
  { h with
    idleShown := fun hp _ => hidle hp
    started := fun hr => h.started (.inl (by simpa using hr))
    workerCommand := by simp [hport] }

theorem HostInv.settle_endCycle {s : State} (h : HostInv s) (hport : s.port = []) :
    HostInv { settle s with executing := false } := by
  unfold settle
  split
  next hp => exact h.endCycle hport (by simp [hp])
  next hp =>
    have hidle : HostInv { s with pollState := .idle } :=
      { h with
        pendingShown := by simp [hp]
        idleShown := fun _ _ => rfl
        scheduledDue := by simp
        activeDue := by simp
        stopped := fun hstop => ⟨(h.stopped hstop).1, rfl⟩ }
    exact hidle.endCycle hport fun _ => rfl

theorem HostInv.requestRead_endCycle {s : State} (h : HostInv s) (hport : s.port = []) (hexec : s.executing = true) :
    HostInv { requestRead Config.block.pollInterval s with executing := false } := by
  unfold requestRead
  split
  next hc =>
    simp only [Bool.and_eq_true, Bool.not_eq_true'] at hc
    obtain ⟨hstop, -⟩ := hc
    exact {
      pendingShown := by simp
      idleShown := by simp
      scheduledDue := by simp
      activeDue := fun _ _ => le_rfl
      started := fun _ => h.started (.inr hexec)
      stopped := by simp [hstop]
      workerCommand := by simp [hport] }
  next hc =>
    refine h.endCycle hport fun hp => (h.stopped ?_).2
    simpa [hp] using hc

theorem HostInv.failCycle {s : State} (h : HostInv s) (hport : s.port = []) : HostInv (failCycle s) :=
  { h.settle_endCycle hport with }

/-- However the worker's command ended, the end of its read cycle keeps the host contract. -/
theorem HostInv.completeCycle {s : State} (h : HostInv s) (hport : s.port = []) (hexec : s.executing = true) :
    HostInv (completeCycle s) := by
  unfold Machine.completeCycle
  split
  · exact { h.stopHost.endCycle hport fun _ => rfl with }
  · split
    · exact h.requestRead_endCycle hport hexec
    · exact h.settle_endCycle hport
  · exact h.settle_endCycle hport

/-- Every event of the environment keeps the host contract; it comes when no command is on the port. -/
theorem HostInv.hostEvent {e : HostEvent} {s t : State} (h : HostInv s) (hport : s.port = [])
    (ht : hostEvent e s = .next t) : HostInv t := by
  cases e <;> simp only [Machine.hostEvent] at ht
  case issue => split at ht <;> cases ht; exact h.present _ (by simp)
  case irq => cases ht; exact h.interrupt
  case wait n => cases ht; exact h.wait n
  case workerStart => cases ht; exact h.startCycle
  case readOk =>
    split at ht
    next hexec => cases ht; exact h.present _ fun _ _ _ => hexec
    next => cases ht
  case readFail => split at ht <;> cases ht; exact h.failCycle hport
  case start => split at ht <;> cases ht; exact h.start
  case stop => split at ht <;> cases ht; exact h.stopHost

/-! ### The step -/

/-- An event of the environment keeps the invariant. -/
theorem Inv.hostEvent {e : HostEvent} {s t : State} (h : Inv s) (hport : s.port = [])
    (ht : hostEvent e s = .next t) : Inv t :=
  ⟨h.block.of_sameBlock (hostEvent_sameBlock ht) (hostEvent_wf_buf ht h.block.buffer), h.host.hostEvent hport ht⟩

/-- A command keeps the invariant. -/
theorem Inv.exec_decodeCommand {cmd : Byte} {buf : List Byte} {s t : State} (h : Inv s)
    (ht : exec (decodeCommand cmd buf) s = .next t) : Inv t :=
  ⟨h.block.exec_decodeCommand ht, h.host.of_sameSurroundings (exec_sameSurroundings ht)⟩

/-- The end of a read cycle keeps the invariant. -/
theorem Inv.completeCycle {s : State} (h : Inv s) (hport : s.port = []) (hexec : s.executing = true) :
    Inv (completeCycle s) :=
  ⟨h.block.of_sameBlock (completeCycle_sameBlock s) (by rw [completeCycle_buf]; exact h.block.buffer),
    h.host.completeCycle hport hexec⟩

/-- Settles O48: the environment's events, the commands and the end of a read cycle each keep the invariant; a worker's
command is inside a read cycle, so there is one to end. -/
theorem invKept : Obligations.InvKept := by
  intro s t h hstep
  obtain ⟨-, -, rfl⟩ | ⟨e, es, hp, -, ht⟩ | ⟨c, u, hp, hu, rfl⟩ := step_cases hstep
  · exact h
  · have hs : Inv { s with events := es } := ⟨{ h.block with }, { h.host with }⟩
    exact hs.hostEvent hp ht
  · have hs : Inv { s with port := [] } := ⟨{ h.block with }, h.host.empty_port⟩
    have hu' : Inv u := hs.exec_decodeCommand hu
    have hsame := exec_sameSurroundings hu
    split
    next hworker =>
      exact hu'.completeCycle hsame.port (hsame.executing.trans (h.host.workerCommand c (by simp [hp]) hworker))
    next => exact hu'

end Sys2Proof.Machine
end

section
/-! PROOFS. The frame buffer and who writes what (rules R40, R44, R45, R51, R52): reads of the buffer, what every instruction leaves unchanged, which step changes the slot file, and the step that runs an issued command. -/

namespace Sys2Proof.Machine

/-! ### The frame buffer (rule R40) -/

theorem Memory.ofBytes_eq_map_swap (bytes : List Byte) : Memory.ofBytes bytes = bytes.zipIdx.map Prod.swap := rfl

/-- Among cells numbered from `n` on, number `n + k` finds the byte at place `k`. -/
theorem lookup_map_swap_zipIdx (bytes : List Byte) (n k : Nat) :
    ((bytes.zipIdx n).map Prod.swap).lookup (n + k) = bytes[k]? := by
  induction bytes generalizing n k with
  | nil => rfl
  | cons b bs ih =>
    cases k with
    | zero => simp
    | succ k =>
      have hne : (n + (k + 1) == n) = false := by simp
      simpa [List.lookup_cons, hne, Nat.add_right_comm, Nat.add_assoc] using ih (n + 1) k

/-- Settles O1: the cells are numbered from 0 on. -/
theorem bufferReads : Obligations.BufferReads := by
  intro bytes k
  rw [Memory.read, Memory.ofBytes_eq_map_swap]
  simpa using lookup_map_swap_zipIdx bytes 0 k

/-! ### What no instruction writes (rules R22, R24, R44, R52) -/

/-- Only RESET, a reserved word and a FRAME on a buffer of the wrong length write STATUS. -/
theorem exec_status {i : Instr} {s t : State} (h : exec i s = .next t)
    (hframe : ∀ buf, i = .frame buf → buf.length = 53) (hreset : i ≠ .reset) (hreserved : ∀ c, i ≠ .reservedCmd c) :
    t.status = s.status := by
  cases i with
  | frame buf => rw [execFrame_of_length (hframe buf rfl)] at h; cases h; rfl
  | reset => exact absurd rfl hreset
  | reservedCmd c => exact absurd rfl (hreserved c)
  | frameclassTouch | frameclassTouchEmpty | frameclassNodata => cases h; exact trackFrame_status ..
  | fingerActive | fingerEmpty => cases h; exact trackSlot_status ..

/-- Settles O39: the surroundings along all eight instructions, STATUS along those that neither fault nor reset. -/
theorem instructionFrame : Obligations.InstructionFrame :=
  fun _ _ _ h => ⟨exec_sameSurroundings h, exec_status h⟩

/-! ### Who writes the slot file (rule R52) -/

/-- Settles O40: the environment and the end of a read cycle keep the slot file, and of the four things a command can do
the two faults keep it too. -/
theorem onlyCommandsWriteSlots : Obligations.OnlyCommandsWriteSlots := by
  intro s t h hne
  obtain ⟨-, hb⟩ | ⟨c, u, hp, hu, hb⟩ := step_block_cases h
  · exact absurd hb.slots hne
  · refine ⟨c, hp, ?_⟩
    rw [hb.slots] at hne
    obtain ⟨hc, hlen, -⟩ | ⟨-, -, rfl⟩ | ⟨hc, -⟩ | ⟨-, -, rfl⟩ := exec_decodeCommand_cases hu
    · exact .inl ⟨hc, hlen⟩
    · exact absurd (raise_slots ..) hne
    · exact .inr hc
    · exact absurd (raise_slots ..) hne

/-! ### The step that runs an issued command (rules R45, R51) -/

/-- Until `stop()` has returned, the host's issue is accepted (rules R139, R159). -/
theorem hostEvent_issue {cmds : List Byte} {buf : List Byte} {s : State}
    (h : s.stopCalled = false ∨ s.executing = true) :
    hostEvent (.issue cmds buf) s = .next (present (cmds.map fun c => { cmd := c, issuer := .host }) buf s) := by
  have hopen : stopReturned s = false := by
    obtain hstop | hexec := h
    · simp [stopReturned, hstop]
    · simp [stopReturned, hexec]
  simp [hostEvent, hopen]

/-- Nothing follows the host's own command. -/
@[simp] theorem afterCommand_host (o : Host.Outcome State Fault Refusal) : afterCommand .host o = o := by
  cases o <;> rfl

/-- The host's own command on the port runs on exactly the buffer presented with it. -/
theorem step_present_host (c : Byte) (buf : List Byte) (s : State) :
    step (present [{ cmd := c, issuer := .host }] buf s) =
      exec (decodeCommand c buf) { s with port := [], buf := Memory.ofBytes buf } := by
  rw [stepRunsTheCommand _ _ rfl, present_buf, Memory.bytes_ofBytes]
  exact afterCommand_host _

/-- Settles O44: the first step puts the command and its buffer on the ports, the second runs it. -/
theorem issueThenRun : Obligations.IssueThenRun := by
  intro c buf es s hp he hopen
  have hissue := hostEvent_issue (cmds := [c]) (buf := buf) (s := { s with events := es }) hopen
  refine ⟨_, (step_of_event hp he).trans hissue, ⟨rfl, rfl, rfl, rfl, rfl⟩, ?_⟩
  rw [List.map_singleton, step_present_host, ← hp]

end Sys2Proof.Machine
end

section
/-! PROOFS. The block's frames (rules R60 to R67, R70, R71, R81, R88, R95): bit fields as numbers, the class of a frame and its row, the round trips of the encoder and the decoder, and the frame 53 bytes stand for. -/

namespace Sys2Proof.Machine

/-! ### Bit fields as numbers (rules R62, R63, R65) -/

@[simp] theorem lowNibble_toNat (b : Byte) : (lowNibble b).toNat = b.toNat % 16 := by
  simp [lowNibble]

@[simp] theorem highNibble_toNat (b : Byte) : (highNibble b).toNat = b.toNat / 16 := by
  simp only [highNibble, BitVec.extractLsb'_toNat, Nat.shiftRight_eq_div_pow]
  omega

theorem joinNibbles_toNat (h l : Nibble) : (joinNibbles h l).toNat = 16 * h.toNat + l.toNat := by
  revert h l; decide

/-- The two parts of a coordinate share no bit, so joining them is adding them. -/
theorem assembleCoord_toNat (hi : Nibble) (lo : Byte) : (assembleCoord hi lo).toNat = lo.toNat + 256 * hi.toNat := by
  have hlo := lo.isLt
  have hhi := hi.isLt
  have hparts : lo.toNat ||| hi.toNat <<< 8 = lo.toNat + 256 * hi.toNat := by
    rw [Nat.or_comm, ← Nat.shiftLeft_add_eq_or_of_lt hlo, Nat.shiftLeft_eq]
    omega
  rw [← hparts]
  simp only [assembleCoord, BitVec.toNat_or, BitVec.toNat_shiftLeft, BitVec.toNat_setWidth, block_coordBits]
  simp (disch := omega) only [Nat.mod_eq_of_lt]

/-- Settles O2: the order says which half of the packed byte each of the two fields is. -/
theorem nibbleOrders : Obligations.NibbleOrders := by
  refine ⟨rfl, fun cfg rec fr => ⟨fun horder => ?_, fun horder => ?_⟩⟩
  · simp [decodeFinger, decodeFrame, horder, firstField, secondField]
  · simp [decodeFinger, decodeFrame, horder, firstField, secondField]

/-! ### The class of a frame and its row (rules R66, R88, R95) -/

@[simp] theorem isTouchPid_eq (b : Byte) : isTouchPid b = (b == 0x5A#8) := rfl

@[simp] theorem isSentinel_eq (b : Byte) : isSentinel b = (b == 0xFF#8) := rfl

section
variable {f : TouchFrame}

theorem frameClass_of_touch (hp : f.packetId = 0x5A#8) (hc : f.frameChecksum ≠ 0xFF#8) : frameClass f = .touch := by
  simp [frameClass, hp, hc]

theorem frameClass_of_touchEmpty (hp : f.packetId = 0x5A#8) (hc : f.frameChecksum = 0xFF#8) :
    frameClass f = .touchEmpty := by
  simp [frameClass, hp, hc]

theorem frameClass_of_nodata (hp : f.packetId ≠ 0x5A#8) : frameClass f = .nodata := by
  simp [frameClass, hp]

end

section
variable (f : TouchFrame)

/-- The packet id and then the frame checksum decide the class (rule R66). -/
theorem frameClass_cases :
    (frameClass f = .touch ∧ f.packetId = 0x5A#8 ∧ f.frameChecksum ≠ 0xFF#8) ∨
    (frameClass f = .touchEmpty ∧ f.packetId = 0x5A#8 ∧ f.frameChecksum = 0xFF#8) ∨
    (frameClass f = .nodata ∧ f.packetId ≠ 0x5A#8) := by
  by_cases hp : f.packetId = 0x5A#8
  · by_cases hc : f.frameChecksum = 0xFF#8
    · exact .inr (.inl ⟨frameClass_of_touchEmpty hp hc, hp, hc⟩)
    · exact .inl ⟨frameClass_of_touch hp hc, hp, hc⟩
  · exact .inr (.inr ⟨frameClass_of_nodata hp, hp⟩)

@[simp] theorem wellFormed_frameclassTouch :
    (Instr.frameclassTouch f).wellFormed = decide (frameClass f = .touch) := by
  obtain ⟨hcls, hp, hc⟩ | ⟨hcls, hp, hc⟩ | ⟨hcls, hp⟩ := frameClass_cases f <;> simp [Instr.wellFormed, *]

@[simp] theorem wellFormed_frameclassTouchEmpty :
    (Instr.frameclassTouchEmpty f).wellFormed = decide (frameClass f = .touchEmpty) := by
  obtain ⟨hcls, hp, hc⟩ | ⟨hcls, hp, hc⟩ | ⟨hcls, hp⟩ := frameClass_cases f <;> simp [Instr.wellFormed, *]

@[simp] theorem wellFormed_frameclassNodata :
    (Instr.frameclassNodata f).wellFormed = decide (frameClass f = .nodata) := by
  obtain ⟨hcls, hp, -⟩ | ⟨hcls, hp, -⟩ | ⟨hcls, hp⟩ := frameClass_cases f <;> simp [Instr.wellFormed, *]

/-- `frame_ok` is the condition of the TOUCH row (rule R88). -/
theorem frameOk_eq : frameOk f = decide (frameClass f = .touch) := wellFormed_frameclassTouch f

theorem streamContinue_eq : streamContinue f = !decide (frameClass f = .nodata) := by
  rw [← wellFormed_frameclassNodata, Instr.wellFormed, Bool.not_not, streamContinue]

/-- The row a frame decodes to is an instruction of the table. -/
theorem wellFormed_frameRow : (frameRow f).wellFormed = true := by
  cases hcls : frameClass f <;> simp [frameRow, hcls]

theorem encode_frameRow : encode (frameRow f) = (encodeFrame Config.block f).toList := by
  cases hcls : frameClass f <;> simp [frameRow, hcls, encode]

end

/-! ### Decoding what was encoded (rules R60 to R67, R70, R71) -/

theorem sizeCheck_toList {cfg : Config} (fr : Frame cfg) : sizeCheck cfg fr.toList = .ok fr :=
  sizeCheck_of_length fr.length_toList

/-- The block's own layout keeps a record's four fields apart. -/
theorem decodeFinger_encodeFinger_block (r : FingerRecord) :
    decodeFinger Config.block (encodeFinger Config.block r) = r :=
  decodeFinger_encodeFinger (by decide) r

theorem decode_encodeFrame (f : TouchFrame) :
    decode .frame53 (encodeFrame Config.block f).toList = .ok (frameRow f) := by
  simp only [decode, sizeCheck_toList, decodeFrame_encodeFrame decodeFinger_encodeFinger_block]

theorem decode_encodeFinger (i : SlotIndex) (r : FingerRecord) :
    decode (.finger5 i) (encodeFinger Config.block r).toList = .ok (fingerRow i r) := by
  have hlen : (encodeFinger Config.block r).toList.length = Config.block.fingerBytes := Vector.length_toList
  rw [decode, dif_pos hlen]
  exact congrArg (fun r => Except.ok (fingerRow i r)) (decodeFinger_encodeFinger_block r)

/-- Settles O5: a command word decodes by comparison, a frame and a record by their round trips; a well-formed row is the
row of its operand. -/
theorem decodeEncode : Obligations.DecodeEncode := by
  intro i hwf
  cases i with
  | frame buf => rfl
  | reset => rfl
  | reservedCmd c =>
    obtain ⟨h1, h2⟩ : c ≠ 0x01#8 ∧ c ≠ 0x02#8 := by simpa [Instr.wellFormed, cmdFrame, cmdReset] using hwf
    exact congrArg Except.ok (decodeCommand_reserved h1 h2 [])
  | frameclassTouch f =>
    have hcls : frameClass f = .touch := by simpa using hwf
    exact (decode_encodeFrame f).trans (by rw [frameRow, hcls])
  | frameclassTouchEmpty f =>
    have hcls : frameClass f = .touchEmpty := by simpa using hwf
    exact (decode_encodeFrame f).trans (by rw [frameRow, hcls])
  | frameclassNodata f =>
    have hcls : frameClass f = .nodata := by simpa using hwf
    exact (decode_encodeFrame f).trans (by rw [frameRow, hcls])
  | fingerActive i r =>
    have hc : ¬ isSentinel r.fingerChecksum = true := by simpa [Instr.wellFormed] using hwf
    exact (decode_encodeFinger i r).trans (by rw [fingerRow, if_neg hc])
  | fingerEmpty i r =>
    have hc : isSentinel r.fingerChecksum = true := hwf
    exact (decode_encodeFinger i r).trans (by rw [fingerRow, if_pos hc])

/-- Settles O4: the decoder evaluates on each of the eight words. -/
theorem decodeWords : Obligations.DecodeWords :=
  ⟨rfl, rfl, rfl, rfl, rfl, rfl, rfl, rfl⟩

/-! ### The frame 53 bytes stand for (rules R60 to R65, R81) -/

/-- Record `i` of a frame, from its bytes at their absolute offsets (rules R61, R62, R64). -/
def recordAt (buf : List Byte) (i : Nat) : FingerRecord where
  yHi := lowNibble (byteAt buf (1 + 5 * i))
  xHi := highNibble (byteAt buf (1 + 5 * i))
  xLo := byteAt buf (2 + 5 * i)
  yLo := byteAt buf (3 + 5 * i)
  fingerChecksum := byteAt buf (4 + 5 * i)

/-- The frame, from its bytes at their absolute offsets (rules R60, R63, R64): what DECODE gives on 53 bytes
(`decodeFrame_eq_frameAt`). -/
def frameAt (buf : List Byte) : TouchFrame where
  packetId := byteAt buf 0
  fingers := Vector.ofFn fun i => recordAt buf i
  keyMask := lowNibble (byteAt buf 51)
  proximityMask := highNibble (byteAt buf 51)
  frameChecksum := byteAt buf 52

theorem frameAt_fingers_getElem (buf : List Byte) (i : Nat) (hi : i < Config.block.nSlots) :
    (frameAt buf).fingers[i] = recordAt buf i := by
  simp [frameAt]

theorem decodeFrame_eq_frameAt {buf : List Byte} {fr : Frame Config.block}
    (h : ∀ (k : Nat) (hk : k < Config.block.frameBytes), fr[k] = byteAt buf k) :
    decodeFrame Config.block fr = frameAt buf := by
  have hrecord (i : SlotIndex) : decodeFinger Config.block (frameRecord Config.block fr i) = recordAt buf i := by
    have hbyte (k : Fin Config.block.fingerBytes) :
        (frameRecord Config.block fr i)[k] = byteAt buf (k.val + 1 + 5 * i.val) := by
      rw [frameRecord_getElem_eq_byteAt h]
      exact congrArg (byteAt buf) (show 1 + i.val * 5 + k.val = k.val + 1 + 5 * i.val by omega)
    simp [decodeFinger, recordAt, hbyte, firstField, secondField]
  simp only [decodeFrame, hrecord, h]
  rfl

theorem decode_frame53_of_length {buf : List Byte} (h : buf.length = 53) :
    decode .frame53 buf = .ok (frameRow (frameAt buf)) := by
  obtain ⟨fr, hok, hbytes⟩ := exists_frame_of_length (cfg := Config.block) h
  simp only [decode, hok, decodeFrame_eq_frameAt hbytes]

theorem exec_frame_of_length {buf : List Byte} (h : buf.length = 53) (s : State) :
    exec (.frame buf) s = .next (runFrame (frameAt buf) s) := by
  rw [execFrame_of_length h, decodeFrame_eq_frameAt (getElem_toFrame h)]

@[simp] theorem xCoord_recordAt_toNat (buf : List Byte) (i : Nat) : (xCoord (recordAt buf i)).toNat = xAt buf i := by
  simp [xCoord, assembleCoord_toNat, recordAt, xAt]

@[simp] theorem yCoord_recordAt_toNat (buf : List Byte) (i : Nat) : (yCoord (recordAt buf i)).toNat = yAt buf i := by
  simp [yCoord, assembleCoord_toNat, recordAt, yAt]

/-- Settles O3: the decoded frame is the one read by absolute offsets. -/
theorem fieldOffsets : Obligations.FieldOffsets := by
  intro buf hlen
  obtain ⟨fr, hok, hbytes⟩ := exists_frame_of_length (cfg := Config.block) hlen
  refine ⟨fr, hok, ?_⟩
  rw [decodeFrame_eq_frameAt hbytes]
  refine ⟨rfl, rfl, lowNibble_toNat _, highNibble_toNat _, fun i => ?_⟩
  rw [Fin.getElem_fin, frameAt_fingers_getElem]
  exact ⟨lowNibble_toNat _, highNibble_toNat _, rfl, rfl, rfl, xCoord_recordAt_toNat .., yCoord_recordAt_toNat ..⟩

/-- Settles O8: the class of the decoded frame fixes bytes 0 and 52, the row, and which rows are well-formed. -/
theorem oneFrameClass : Obligations.OneFrameClass := by
  intro buf hlen
  refine ⟨frameAt buf, ?_⟩
  rw [decode_frame53_of_length hlen, frameOk_eq]
  obtain ⟨hcls, h0, h52⟩ | ⟨hcls, h0, h52⟩ | ⟨hcls, h0⟩ := frameClass_cases (frameAt buf)
  · exact .inl ⟨h0, h52, by simp [frameRow, hcls]⟩
  · exact .inr (.inl ⟨h0, h52, by simp [frameRow, hcls]⟩)
  · exact .inr (.inr ⟨h0, by simp [frameRow, hcls]⟩)

/-! ### Encoding what was decoded (rules R60 to R64) -/

/-- Every offset of a frame is that of the packet id, of a byte of a record, of the masks or of the frame checksum. -/
theorem frame_offset_cases {k : Nat} (hk : k < 53) :
    k = 0 ∨ (∃ (i : SlotIndex) (j : Nat), j < 5 ∧ k = 1 + 5 * i.val + j) ∨ k = 51 ∨ k = 52 := by
  by_cases hrec : 1 ≤ k ∧ k < 51
  · have hi : (k - 1) / 5 < Config.block.nSlots := by rw [block_nSlots]; omega
    exact .inr (.inl ⟨⟨_, hi⟩, (k - 1) % 5, by omega, by simp only; omega⟩)
  · omega

theorem byteAt_encodeFrame (f : TouchFrame) {k : Nat} (hk : k < 53) :
    byteAt (encodeFrame Config.block f).toList k = encodeFrameByte Config.block f k := by
  simp [byteAt, encodeFrame, hk]

/-- An encoded record holds the bytes it was decoded from, but for the reserved one. -/
theorem encodeFinger_recordAt_getElem (buf : List Byte) (i : Nat) {j : Nat} (hj : j < 5) :
    (encodeFinger Config.block (recordAt buf i))[j] = if j = 4 then 0x00#8 else byteAt buf (1 + 5 * i + j) := by
  interval_cases j <;> simp [encodeFinger, recordAt, packFields, Nat.add_right_comm]

/-- Settles O6: packet id, records, masks and frame checksum each encode to the bytes they were read from. -/
theorem encodeDecodedFrame : Obligations.EncodeDecodedFrame := by
  intro buf hlen
  refine ⟨_, decode_frame53_of_length hlen, ?_⟩
  rw [encode_frameRow]
  refine ⟨Vector.length_toList, fun k hk => ?_⟩
  rw [byteAt_encodeFrame _ hk]
  obtain rfl | ⟨i, j, hj, rfl⟩ | rfl | rfl := frame_offset_cases hk
  · exact encodeFrameByte_zero ..
  · have hi := slotIndex_lt i
    rw [← block_recordOffset, encodeFrameByte_recordOffset _ _ i.isLt hj, frameAt_fingers_getElem,
      encodeFinger_recordAt_getElem buf i hj, block_recordOffset]
    by_cases hreserved : j = 4
    · rw [if_pos hreserved, if_pos (by omega)]
    · rw [if_neg hreserved, if_neg (by omega)]
  · exact (encodeFrameByte_maskOffset ..).trans (joinNibbles_nibbles _)
  · exact encodeFrameByte_checksumOffset ..

end Sys2Proof.Machine
end

section
/-! PROOFS. The frame builder (rule R75): where its bytes stand, and that they are R75's. -/

namespace Sys2Proof.Machine

/-! ### Where the builder's bytes stand -/

/-- Where every part of a concatenation has `n` elements, element `j` of part `i` stands at place `n * i + j`. -/
theorem getElem?_flatMap_of_length {α β : Type} {n : Nat} {g : α → List β} (hg : ∀ a, (g a).length = n) {j : Nat}
    (hj : j < n) (l : List α) (i : Nat) : (l.flatMap g)[n * i + j]? = l[i]?.bind fun a => (g a)[j]? := by
  induction l generalizing i with
  | nil => simp
  | cons a l ih =>
    rw [List.flatMap_cons]
    cases i with
    | zero => simp [List.getElem?_append_left, hg, hj]
    | succ i =>
      rw [List.getElem?_append_right (by rw [hg]; simp [Nat.mul_succ]; omega), hg]
      simpa [Nat.mul_succ, show n * i + n + j - n = n * i + j by omega] using ih i

theorem byteAt_replicate {n k : Nat} {b : Byte} (h : k < n) : byteAt (List.replicate n b) k = b := by
  simp [byteAt, h]

@[simp] theorem length_builderRecord (fs : List BuilderFinger) (i : SlotIndex) : (builderRecord fs i).length = 5 := by
  unfold builderRecord
  split <;> rfl

section
variable (pid fchk : Byte) (km pm : Nibble) (fs : List BuilderFinger)

theorem length_buildFrame : (buildFrame pid fchk km pm fs).length = 53 := by
  simp [buildFrame, List.length_flatMap]

theorem byteAt_buildFrame_record (i : SlotIndex) {j : Nat} (hj : j < 5) :
    byteAt (buildFrame pid fchk km pm fs) (j + 1 + 5 * i.val) = byteAt (builderRecord fs i) j := by
  have hi := slotIndex_lt i
  have hrecords := getElem?_flatMap_of_length (length_builderRecord fs) hj (List.finRange Config.block.nSlots) i.val
  have hoff : j + 1 + 5 * i.val = 5 * i.val + j + 1 := by omega
  rw [byteAt, byteAt, buildFrame, hoff, List.getElem?_cons_succ, List.getElem?_append_left, hrecords]
  · simp
  · simp [List.length_flatMap]; omega

/-- After the ten records come the masks and the frame checksum. -/
theorem byteAt_buildFrame_tail (k : Nat) :
    byteAt (buildFrame pid fchk km pm fs) (51 + k) = byteAt [joinNibbles pm km, fchk] k := by
  rw [byteAt, byteAt, buildFrame, show 51 + k = 50 + k + 1 by omega, List.getElem?_cons_succ,
    List.getElem?_append_right]
  · simp [List.length_flatMap]
  · simp [List.length_flatMap]

end

/-! ### The coordinates of a listed slot -/

theorem coord_upper_toNat (c : Coord) : (c.extractLsb' 8 4).toNat = c.toNat / 256 := by
  have hc := coord_lt c
  simp only [BitVec.extractLsb'_toNat, Nat.shiftRight_eq_div_pow]
  omega

theorem coord_lower_toNat (c : Coord) : (c.extractLsb' 0 8).toNat = c.toNat % 256 := by
  simp

theorem posAt_eq {buf : List Byte} {i : Nat} {x y : Coord} (hx : xAt buf i = x.toNat) (hy : yAt buf i = y.toNat) :
    posAt buf i = { x := x, y := y } := by
  rw [posAt, hx, hy, BitVec.ofNat_toNat, BitVec.ofNat_toNat, BitVec.setWidth_eq, BitVec.setWidth_eq]

/-- Settles O9: the byte after the packet id starts the ten records of five bytes each; a listed slot's record is its
finger's, and its two coordinates are put together again from their parts. -/
theorem frameBuilder : Obligations.FrameBuilder := by
  intro pid fchk km pm fs
  have htail := byteAt_buildFrame_tail pid fchk km pm fs
  refine ⟨length_buildFrame .., rfl, ?_, htail 1, fun i => ?_⟩
  · exact (congrArg BitVec.toNat (htail 0)).trans (joinNibbles_toNat pm km)
  have hrecord (j : Nat) (hj : j < 5) := byteAt_buildFrame_record pid fchk km pm fs i hj
  cases hfind : fs.find? (fun b => b.slot == i) with
  | some b =>
    simp only [builderRecord, hfind] at hrecord
    have hhi := (congrArg BitVec.toNat (hrecord 0 (by decide))).trans (joinNibbles_toNat _ _)
    rw [coord_upper_toNat, coord_upper_toNat, Nat.zero_add] at hhi
    have hx := (congrArg BitVec.toNat (hrecord 1 (by decide))).trans (coord_lower_toNat b.x)
    have hy := (congrArg BitVec.toNat (hrecord 2 (by decide))).trans (coord_lower_toNat b.y)
    refine ⟨hhi, hx, hy, hrecord 3 (by decide), hrecord 4 (by decide), ?_⟩
    have hxlt := coord_lt b.x
    have hylt := coord_lt b.y
    exact posAt_eq (by rw [xAt, hx, hhi]; omega) (by rw [yAt, hy, hhi]; omega)
  | none =>
    intro k hk
    simp only [builderRecord, hfind] at hrecord
    rw [show 1 + 5 * i.val + k = k + 1 + 5 * i.val by omega, hrecord k hk]
    exact byteAt_replicate hk

end Sys2Proof.Machine
end

section
/-! PROOFS. What the rows of the opcode table do (rules R66, R67, R71, R74, R76, R100, R102 to R104, R106): the frame rows, FRAME as its row and by its bytes, the finger rows, the reserved words, and `WAIT`. -/

namespace Sys2Proof.Machine

/-! ### One slot of a tracked frame (rules R102 to R104) -/

theorem transitionOf_touched (was : Bool) : transitionOf was true = if was then .update else .add := by
  cases was <;> rfl

theorem transitionOf_untouched (was : Bool) : transitionOf was false = if was then .release else .idle := by
  cases was <;> rfl

section
variable {cs : PerSlot (Option Pos)} {i : SlotIndex}

theorem tracked_of_contact {p : Pos} (h : cs[i] = some p) (slots : PerSlot Slot) :
    (trackedSlots cs)[i] = { active := true, pos := some p } ∧
    (trackedEvents cs)[i] = { slotIndex := i, kind := .touching p } ∧
    (trackedTransitions slots cs)[i] = if slots[i].active then .update else .add := by
  rw [Fin.getElem_fin] at h
  refine ⟨?_, ?_, ?_⟩
  · rw [Fin.getElem_fin, trackedSlots_getElem, h]; rfl
  · rw [Fin.getElem_fin, trackedEvents_getElem, h]; rfl
  · rw [Fin.getElem_fin, trackedTransitions_getElem, h]; exact transitionOf_touched _

theorem tracked_of_no_contact (h : cs[i] = none) (slots : PerSlot Slot) :
    (trackedSlots cs)[i] = { active := false, pos := none } ∧
    (trackedEvents cs)[i] = { slotIndex := i, kind := .released } ∧
    (trackedTransitions slots cs)[i] = if slots[i].active then .release else .idle := by
  rw [Fin.getElem_fin] at h
  refine ⟨?_, ?_, ?_⟩
  · rw [Fin.getElem_fin, trackedSlots_getElem, h]; rfl
  · rw [Fin.getElem_fin, trackedEvents_getElem, h]; rfl
  · rw [Fin.getElem_fin, trackedTransitions_getElem, h]; exact transitionOf_untouched _

end

/-! ### The frame rows (rules R66, R67, R90) -/

/-- Settles O33: the row's contacts are the positions of the records whose checksum is not the sentinel. -/
theorem touchRow : Obligations.TouchRow := by
  intro f s
  refine ⟨_, _, rfl, rfl, rfl, rfl, rfl, rfl, rfl, rfl, ?_, fun i => ⟨fun hc => ?_, fun hc => ?_⟩⟩
  · simp [frameReport, anyTouchingOf_eq_true]
  · refine tracked_of_contact ((Vector.getElem_ofFn _).trans (if_pos ?_)) s.slots
    simpa using hc
  · refine tracked_of_no_contact ((Vector.getElem_ofFn _).trans (if_neg ?_)) s.slots
    simpa using hc

/-- Settles O34: neither row has a contact. -/
theorem releasingRows : Obligations.ReleasingRows := by
  intro f s
  refine ⟨_, _, _, _, rfl, rfl, rfl, rfl, rfl, rfl, rfl, rfl, rfl, rfl, rfl, rfl, ⟨rfl, rfl⟩, ⟨rfl, rfl, rfl, rfl⟩,
    fun i => ?_⟩
  obtain ⟨hslot, hevent, htransition⟩ := tracked_of_no_contact (i := i) (Vector.getElem_replicate i.isLt) s.slots
  exact ⟨hslot, rfl, hevent, rfl, htransition, rfl⟩

/-! ### FRAME and its row (rules R66, R76, R100) -/

/-- Outside the class TOUCH no slot has a contact (rules R88, R89). -/
theorem contacts_of_not_touch {f : TouchFrame} (h : frameClass f ≠ .touch) :
    (Vector.ofFn fun i => contactOf (touching f i) f.fingers[i]) = Vector.replicate Config.block.nSlots none := by
  refine perSlot_ext fun i => ?_
  simp [touching, frameOk_eq, h, contactOf]

/-- FRAME's work on a frame is that of the frame's row. -/
theorem exec_frameRow (f : TouchFrame) (s : State) : exec (frameRow f) s = .next (runFrame f s) := by
  cases hcls : frameClass f with
  | touch =>
    simp only [frameRow, hcls, runFrame, streamContinue_eq, touching, frameOk_eq]
    rfl
  | touchEmpty | nodata =>
    rw [frameRow, runFrame, streamContinue_eq, contacts_of_not_touch (by simp [hcls]), hcls]
    rfl

theorem exec_frame_eq_exec_row {buf : List Byte} (h : buf.length = 53) (s : State) :
    exec (.frame buf) s = exec (frameRow (frameAt buf)) s :=
  (exec_frame_of_length h s).trans (exec_frameRow _ s).symm

/-- Settles O35: FRAME's buffer decodes to the row of its frame. -/
theorem frameRunsItsRow : Obligations.FrameRunsItsRow :=
  fun _ s h => ⟨_, decode_frame53_of_length h, wellFormed_frameRow _, exec_frame_eq_exec_row h s⟩

/-- Settles O26: `LIFT` runs the TOUCH_EMPTY row and `NODATA` the NODATA row, and both rows release every slot. -/
theorem liftAndNodata : Obligations.LiftAndNodata := by
  refine ⟨rfl, rfl, by decide, fun s => ?_⟩
  have hlift : exec (.frame liftFrame) s = exec (.frameclassTouchEmpty (frameAt liftFrame)) s :=
    exec_frame_eq_exec_row rfl s
  have hnodata : exec (.frame nodataFrame) s = exec (.frameclassNodata (frameAt nodataFrame)) s :=
    exec_frame_eq_exec_row rfl s
  obtain ⟨t, r, _, _, ht, hr, -, -, hcls, hcont, -, -, -, -, -, -, -, -, hslots⟩ :=
    releasingRows (frameAt liftFrame) s
  obtain ⟨_, _, u, q, -, -, -, -, -, -, hu, hq, -, -, hcls', hcont', -, -, hslots'⟩ :=
    releasingRows (frameAt nodataFrame) s
  refine ⟨t, r, u, q, hlift.trans ht, hr, hnodata.trans hu, hq, hcont, hcls, hcont', hcls', fun i => ?_⟩
  obtain ⟨hslot, -, hevent, -, -, -⟩ := hslots i
  obtain ⟨hslot', heq, hevent', heq', -, -⟩ := hslots' i
  exact ⟨hslot, hevent, heq.trans hslot', heq'.trans hevent'⟩

/-! ### FRAME by its bytes (rules R66, R67, R95, R102) -/

theorem recordPos_recordAt (buf : List Byte) (i : Nat) : recordPos (recordAt buf i) = posAt buf i :=
  (posAt_eq (xCoord_recordAt_toNat buf i).symm (yCoord_recordAt_toNat buf i).symm).symm

theorem touching_frameAt (buf : List Byte) (i : SlotIndex) : touching (frameAt buf) i = touchingAt buf i := by
  rw [touching, Fin.getElem_fin, frameAt_fingers_getElem]
  rfl

theorem runFrame_frameAt_slots (buf : List Byte) (s : State) (i : SlotIndex) :
    (runFrame (frameAt buf) s).slots[i] = slotAt buf i := by
  rw [runFrame, trackFrame_slots, Fin.getElem_fin, trackedSlots_getElem, Vector.getElem_ofFn, touching_frameAt,
    Fin.getElem_fin, frameAt_fingers_getElem, contactOf, recordPos_recordAt, slotAt]
  split <;> rfl

/-- Settles O16: bytes 0 and 52 decide the class, and with the record's checksum whether the slot is touching. -/
theorem frameClassAndStream : Obligations.FrameClassAndStream := by
  intro buf s hlen
  refine ⟨_, _, exec_frame_of_length hlen s, rfl, beq_iff_eq, fun h0 h52 => ?_, fun h0 h52 => ?_, fun h0 => ?_⟩
  · refine ⟨frameClass_of_touch h0 h52, fun i => ⟨fun hc => ?_, fun hc => ?_⟩⟩
    · exact (runFrame_frameAt_slots ..).trans (if_pos (by simp [touchingAt, h0, h52, hc]))
    · exact (runFrame_frameAt_slots ..).trans (if_neg (by simp [touchingAt, hc]))
  · refine ⟨frameClass_of_touchEmpty h0 h52, fun i => ?_⟩
    exact (runFrame_frameAt_slots ..).trans (if_neg (by simp [touchingAt, h52]))
  · refine ⟨frameClass_of_nodata h0, fun i => ?_⟩
    exact (runFrame_frameAt_slots ..).trans (if_neg (by simp [touchingAt, h0]))

/-! ### The finger rows (rules R67, R100) -/

theorem perSlot_set_self {α : Type} (v : PerSlot α) (i : SlotIndex) (a : α) : (v.set i a)[i] = a :=
  Vector.getElem_set_self i.isLt

theorem perSlot_set_ne {α : Type} (v : PerSlot α) {i j : SlotIndex} (h : j ≠ i) (a : α) : (v.set i a)[j] = v[j] :=
  Vector.getElem_set_ne i.isLt j.isLt fun hij => h (Fin.ext hij.symm)

theorem trackSlot_report_of_none {i : SlotIndex} {c : Option Pos} {s : State} (h : s.report = none) :
    (trackSlot i c s).report = none := by
  rw [trackSlot_report, h, Option.map_none]

theorem trackSlot_report_of_some {i : SlotIndex} {c : Option Pos} {s : State} {q : Report} (h : s.report = some q) :
    (trackSlot i c s).report =
      some (q.setEntry i (EventKind.ofContact c) (transitionOf s.slots[i].active c.isSome)) := by
  rw [trackSlot_report, h, Option.map_some]

/-- `any_touching` of the report under construction is the touch of the filled-in entry, or that of another entry
(rule R106). -/
theorem setEntry_anyTouching (i : SlotIndex) (kind : EventKind) (tr : Transition) (q : Report) :
    (q.setEntry i kind tr).anyTouching = true ↔
      kind.isTouching = true ∨ ∃ j : SlotIndex, j ≠ i ∧ q.events[j].kind.isTouching = true := by
  refine anyTouchingOf_eq_true.trans ⟨fun ⟨j, hj⟩ => ?_, fun h => ?_⟩
  · by_cases hji : j = i
    · subst hji
      rw [perSlot_set_self] at hj
      exact .inl hj
    · rw [perSlot_set_ne _ hji] at hj
      exact .inr ⟨j, hji, hj⟩
  · obtain hkind | ⟨j, hji, hj⟩ := h
    · exact ⟨i, by rw [perSlot_set_self]; exact hkind⟩
    · exact ⟨j, by rw [perSlot_set_ne _ hji]; exact hj⟩

/-- Settles O36: the row tracks one slot, with the record's position as its contact. -/
theorem fingerActive : Obligations.FingerActive := by
  intro i r s
  refine ⟨_, rfl, perSlot_set_self .., fun j hj => perSlot_set_ne _ hj _, rfl, rfl, rfl, trackSlot_report_of_none,
    fun q hq => ⟨_, trackSlot_report_of_some hq, perSlot_set_self .., ?_, ?_, fun j hj => ?_, rfl, rfl, rfl, rfl⟩⟩
  · exact (perSlot_set_self ..).trans (transitionOf_touched _)
  · exact (setEntry_anyTouching ..).mpr (.inl rfl)
  · exact ⟨perSlot_set_ne _ hj _, perSlot_set_ne _ hj _⟩

/-- Settles O37: the row tracks one slot, with no contact. -/
theorem fingerEmpty : Obligations.FingerEmpty := by
  intro i r s
  refine ⟨_, rfl, perSlot_set_self .., fun j hj => perSlot_set_ne _ hj _, rfl, rfl, rfl, trackSlot_report_of_none,
    fun q hq => ⟨_, trackSlot_report_of_some hq, perSlot_set_self .., ?_, ?_, fun j hj => ?_, rfl, rfl, rfl, rfl⟩⟩
  · exact (perSlot_set_self ..).trans (transitionOf_untouched _)
  · exact (setEntry_anyTouching ..).trans (or_iff_right Bool.false_ne_true)
  · exact ⟨perSlot_set_ne _ hj _, perSlot_set_ne _ hj _⟩

/-! ### The reserved words and `WAIT` (rules R71, R74, R122) -/

/-- Settles O29: a reserved word on the port decodes to the instruction that raises the fault, whatever the buffer. -/
theorem illegalCommand : Obligations.IllegalCommand := by
  intro c s h1 h2
  refine ⟨rfl, fun hp => ?_⟩
  rw [stepRunsTheCommand _ s hp, decodeCommand_reserved h1 h2]
  rfl

/-- Settles O58: with the port empty the step is the event, and the event adds to the time. -/
theorem waitAdvancesTime : Obligations.WaitAdvancesTime :=
  fun _ _ _ hp he => step_of_event hp he

end Sys2Proof.Machine
end

section
/-! PROOFS. The packet decoder's outputs (rules R65, R84 to R90, R92, R94, R102): coordinates, the contacts 53 bytes give, and which bytes FRAME's outcome depends on. -/

namespace Sys2Proof.Machine

/-! ### Coordinates and their two parts (rules R65, R84, R85) -/

theorem assembleCoord_lower (hi : Nibble) (lo : Byte) : (assembleCoord hi lo).extractLsb' 0 8 = lo := by
  have hlo := lo.isLt
  refine BitVec.eq_of_toNat_eq ?_
  rw [coord_lower_toNat, assembleCoord_toNat]
  omega

theorem assembleCoord_upper (hi : Nibble) (lo : Byte) : (assembleCoord hi lo).extractLsb' 8 4 = hi := by
  have hlo := lo.isLt
  refine BitVec.eq_of_toNat_eq ?_
  rw [coord_upper_toNat, assembleCoord_toNat]
  omega

/-- Settles O10: both coordinates are assembled in the same way. -/
theorem coordinateFormula : Obligations.CoordinateFormula := fun _ =>
  ⟨assembleCoord_toNat .., assembleCoord_lower .., assembleCoord_upper ..,
    assembleCoord_toNat .., assembleCoord_lower .., assembleCoord_upper ..⟩

/-! ### The contacts of a frame, from its bytes (rules R64, R89, R102) -/

/-- The ten contacts of 53 bytes: what FRAME tracks on them (`exec_frame_eq_trackFrame`). -/
def contactsAt (buf : List Byte) : PerSlot (Option Pos) :=
  Vector.ofFn fun i => if touchingAt buf i then some (posAt buf i) else none

theorem contactsAt_getElem (buf : List Byte) (i : SlotIndex) :
    (contactsAt buf)[i] = if touchingAt buf i then some (posAt buf i) else none :=
  Vector.getElem_ofFn i.isLt

theorem frameContacts_eq_contactsAt (buf : List Byte) :
    (Vector.ofFn fun i => contactOf (touching (frameAt buf) i) (frameAt buf).fingers[i]) = contactsAt buf := by
  refine perSlot_ext fun i => ?_
  rw [contactsAt_getElem, Fin.getElem_fin, Vector.getElem_ofFn, touching_frameAt, Fin.getElem_fin,
    frameAt_fingers_getElem, contactOf, recordPos_recordAt]

/-- FRAME tracks the contacts of its bytes. -/
theorem exec_frame_eq_trackFrame {buf : List Byte} (h : buf.length = 53) (s : State) :
    exec (.frame buf) s = .next (trackFrame (frameAt buf) (frameClass (frameAt buf)) (streamContinue (frameAt buf))
      (contactsAt buf) s) := by
  rw [exec_frame_of_length h, runFrame, frameContacts_eq_contactsAt]

/-! ### No clamping (rule R86) -/

/-- The frame builder makes a TOUCH frame with any coordinates in any slot. -/
theorem exists_buffer_at (i : SlotIndex) (x y : Coord) :
    ∃ buf : List Byte, buf.length = 53 ∧ touchingAt buf i = true ∧ xAt buf i = x.toNat ∧ yAt buf i = y.toNat := by
  obtain ⟨hlen, h0, -, h52, hrecord⟩ := frameBuilder 0x5A#8 0x00#8 0 0 [{ slot := i, x := x, y := y, c := 0x00#8 }]
  specialize hrecord i
  simp only [List.find?_cons, beq_self_eq_true] at hrecord
  obtain ⟨hhi, hx, hy, hc, -, -⟩ := hrecord
  have hylt := coord_lt y
  refine ⟨_, hlen, ?_, ?_, ?_⟩
  · rw [touchingAt, h0, h52, hc]; rfl
  · rw [xAt, hx, hhi]; omega
  · rw [yAt, hy, hhi]; omega

/-- Settles O11: a slot's contact is the pair its bytes hold, and tracking keeps the contact as it is. -/
theorem noClamping : Obligations.NoClamping := by
  refine fun i x y => ⟨exists_buffer_at i x y, fun buf s hlen htouch hx hy => ?_⟩
  have hcontact : (contactsAt buf)[i] = some { x := x, y := y } := by
    rw [contactsAt_getElem, if_pos htouch, posAt_eq hx hy]
  obtain ⟨hslot, hevent, -⟩ := tracked_of_contact hcontact s.slots
  exact ⟨_, _, exec_frame_eq_trackFrame hlen s, trackFrame_report .., hevent, hslot⟩

/-! ### Frames that release every slot (rules R88 to R90) -/

theorem frameClass_eq_touch_iff (f : TouchFrame) :
    frameClass f = .touch ↔ f.packetId = 0x5A#8 ∧ f.frameChecksum ≠ 0xFF#8 := by
  rw [← decide_eq_true_eq (p := frameClass f = .touch), ← frameOk_eq]
  simp [frameOk]

theorem contactsAt_of_not_touch {buf : List Byte} (h : frameClass (frameAt buf) ≠ .touch) :
    contactsAt buf = Vector.replicate Config.block.nSlots none :=
  (frameContacts_eq_contactsAt buf).symm.trans (contacts_of_not_touch h)

theorem anyTouchingOf_no_contact :
    anyTouchingOf (trackedEvents (Vector.replicate Config.block.nSlots none)) = false := rfl

/-- Settles O18: such a frame is not of class TOUCH, so no slot has a contact. -/
theorem globalOverride : Obligations.GlobalOverride := by
  intro buf s hlen h
  have hcls : frameClass (frameAt buf) ≠ .touch := fun htouch => by
    obtain ⟨h0, h52⟩ := (frameClass_eq_touch_iff _).mp htouch
    exact h.elim (· h0) h52
  have hexec := exec_frame_eq_trackFrame hlen s
  rw [contactsAt_of_not_touch hcls] at hexec
  refine ⟨_, _, hexec, trackFrame_report .., anyTouchingOf_no_contact, fun i => ?_⟩
  obtain ⟨hslot, hevent, -⟩ := tracked_of_no_contact (i := i) (Vector.getElem_replicate i.isLt) s.slots
  exact ⟨hslot, hevent⟩

/-! ### What FRAME's outcome depends on (rules R87, R92, R94) -/

theorem posAt_congr {a b : List Byte} {i : Nat} (hhi : byteAt a (1 + 5 * i) = byteAt b (1 + 5 * i))
    (hx : byteAt a (2 + 5 * i) = byteAt b (2 + 5 * i)) (hy : byteAt a (3 + 5 * i) = byteAt b (3 + 5 * i)) :
    posAt a i = posAt b i := by
  simp only [posAt, xAt, yAt, hhi, hx, hy]

/-- The buffers agree in the packet id, in which checksums are the sentinel, and in the positions of the touching slots:
in all that decides the class and the contacts (`SameTracking.exec_frame`). -/
structure SameTracking (a b : List Byte) : Prop where
  packetId : byteAt a 0 = byteAt b 0
  frameSentinel : byteAt a 52 = 0xFF#8 ↔ byteAt b 52 = 0xFF#8
  fingerSentinel : ∀ i : SlotIndex, byteAt a (4 + 5 * i.val) = 0xFF#8 ↔ byteAt b (4 + 5 * i.val) = 0xFF#8
  pos : ∀ i : SlotIndex, touchingAt a i = true → posAt a i = posAt b i

section
variable {a b : List Byte} (h : SameTracking a b)
include h

theorem SameTracking.touchingAt_eq (i : SlotIndex) : touchingAt a i = touchingAt b i := by
  simp only [touchingAt, h.packetId, bne, beq_eq_decide, h.frameSentinel, h.fingerSentinel i]

theorem SameTracking.contactsAt_eq : contactsAt a = contactsAt b := by
  refine perSlot_ext fun i => ?_
  rw [contactsAt_getElem, contactsAt_getElem, ← h.touchingAt_eq i]
  split
  next htouch => rw [h.pos i htouch]
  next => rfl

theorem SameTracking.streamContinue_eq : streamContinue (frameAt a) = streamContinue (frameAt b) :=
  congrArg isTouchPid h.packetId

theorem SameTracking.frameClass_eq : frameClass (frameAt a) = frameClass (frameAt b) := by
  simp only [frameClass, frameAt, h.packetId, isSentinel_eq, beq_iff_eq, h.frameSentinel]

/-- FRAME on the second buffer: the second's masks, and all else as from the first. -/
theorem SameTracking.exec_frame (hb : b.length = 53) (s : State) :
    exec (.frame b) s = .next (trackFrame (frameAt b) (frameClass (frameAt a)) (streamContinue (frameAt a))
      (contactsAt a) s) := by
  rw [exec_frame_eq_trackFrame hb, h.frameClass_eq, h.streamContinue_eq, h.contactsAt_eq]

/-- With the same masks too, the outcome is the same. -/
theorem SameTracking.exec_frame_eq (hmasks : byteAt a 51 = byteAt b 51) (ha : a.length = 53) (hb : b.length = 53)
    (s : State) : exec (.frame a) s = exec (.frame b) s := by
  rw [exec_frame_eq_trackFrame ha, h.exec_frame hb]
  simp only [trackFrame, frameReport, frameAt, hmasks]

end

/-- Equal bytes outside the masks track the same. -/
theorem sameTracking_of_eq_outside_masks {a b : List Byte} (h : ∀ k, k < 53 → k ≠ 51 → byteAt a k = byteAt b k) :
    SameTracking a b where
  packetId := h 0 (by decide) (by decide)
  frameSentinel := by rw [h 52 (by decide) (by decide)]
  fingerSentinel i := by
    have hi := slotIndex_lt i
    rw [h _ (by omega) (by omega)]
  pos i _ := by
    have hi := slotIndex_lt i
    exact posAt_congr (h _ (by omega) (by omega)) (h _ (by omega) (by omega)) (h _ (by omega) (by omega))

theorem SameForOutputs.sameTracking {a b : List Byte} (h : SameForOutputs a b) : SameTracking a b where
  packetId := h.packetId
  frameSentinel := by rw [h.frameChecksum]
  fingerSentinel i := by rw [h.fingerChecksum i]
  pos i htouch := posAt_congr (h.hi i htouch) (h.xLo i htouch) (h.yLo i htouch)

theorem SameUpToChecksums.sameTracking {a b : List Byte} (h : SameUpToChecksums a b) : SameTracking a b where
  packetId := h.others 0 (by decide) fun i => by omega
  frameSentinel := h.frameChecksum
  fingerSentinel := h.fingerChecksum
  pos i _ := by
    have hi := slotIndex_lt i
    have hbyte (j : Nat) (hj : j < 4) (hpos : 0 < j) : byteAt a (j + 5 * i.val) = byteAt b (j + 5 * i.val) :=
      h.others _ (by omega) fun i' => by omega
    exact posAt_congr (hbyte 1 (by decide) (by decide)) (hbyte 2 (by decide) (by decide))
      (hbyte 3 (by decide) (by decide))

/-- Settles O17: the two buffers track the same, and each report has the masks of its own byte 51. -/
theorem masksPassThrough : Obligations.MasksPassThrough := by
  intro a b s ha hb h
  exact ⟨_, _, _, _, exec_frame_eq_trackFrame ha s, (sameTracking_of_eq_outside_masks h).exec_frame hb s,
    trackFrame_report .., trackFrame_report .., lowNibble_toNat _, highNibble_toNat _, rfl, rfl⟩

/-- Settles O19: the ignored bytes decide neither class, contacts nor masks. -/
theorem ignoredBytes : Obligations.IgnoredBytes :=
  fun _ _ s ha hb h => h.sameTracking.exec_frame_eq h.masks ha hb s

/-- Settles O20: a checksum decides class and contacts only by being the sentinel or not, and the masks not at all. -/
theorem noChecksumArithmetic : Obligations.NoChecksumArithmetic :=
  fun _ _ s ha hb h => h.sameTracking.exec_frame_eq (h.others 51 (by decide) fun i => by omega) ha hb s

end Sys2Proof.Machine
end

section
/-! PROOFS. The contact tracker on 53 bytes (rules R102 to R104, R106, R107, R109, R110), the loop of rule R100 as ten finger rows, and the commands that emit nothing (rules R105, R108). -/

namespace Sys2Proof.Machine

/-! ### The tables of FRAME by its bytes (rules R102 to R104) -/

theorem trackedSlots_contactsAt (buf : List Byte) (i : SlotIndex) :
    (trackedSlots (contactsAt buf))[i] = slotAt buf i := by
  rw [Fin.getElem_fin, trackedSlots_getElem, ← Fin.getElem_fin, contactsAt_getElem, slotAt]
  split <;> rfl

theorem trackedEvents_contactsAt (buf : List Byte) (i : SlotIndex) :
    (trackedEvents (contactsAt buf))[i] = { slotIndex := i, kind := kindAt buf i } := by
  rw [Fin.getElem_fin, trackedEvents_getElem, ← Fin.getElem_fin, contactsAt_getElem, kindAt]
  split <;> rfl

theorem trackedTransitions_contactsAt (slots : PerSlot Slot) (buf : List Byte) (i : SlotIndex) :
    (trackedTransitions slots (contactsAt buf))[i] = transitionOf slots[i].active (touchingAt buf i) := by
  rw [Fin.getElem_fin, trackedTransitions_getElem, ← Fin.getElem_fin, ← Fin.getElem_fin, contactsAt_getElem]
  cases touchingAt buf i <;> rfl

@[simp] theorem slotAt_active (buf : List Byte) (i : Nat) : (slotAt buf i).active = touchingAt buf i := by
  cases htouch : touchingAt buf i <;> simp [slotAt, htouch]

@[simp] theorem kindAt_isTouching (buf : List Byte) (i : Nat) : (kindAt buf i).isTouching = touchingAt buf i := by
  cases htouch : touchingAt buf i <;> simp [kindAt, htouch, EventKind.isTouching]

theorem kindAt_eq_touching_iff (buf : List Byte) (i : Nat) (p : Pos) :
    kindAt buf i = .touching p ↔ slotAt buf i = { active := true, pos := some p } := by
  cases htouch : touchingAt buf i <;> simp [kindAt, slotAt, htouch]

theorem anyTouchingOf_contactsAt (buf : List Byte) :
    anyTouchingOf (trackedEvents (contactsAt buf)) = true ↔ ∃ i : SlotIndex, touchingAt buf i = true := by
  simp only [anyTouchingOf_eq_true, trackedEvents_contactsAt, kindAt_isTouching]

/-! ### FRAME (rules R102 to R104, R106) -/

/-- Settles O12: the slots are the table of the frame's contacts, and only the transitions' table takes the slots
before. -/
theorem frameSlots : Obligations.FrameSlots := fun buf s hlen =>
  ⟨_, _, exec_frame_eq_trackFrame hlen s, trackFrame_report .., trackedSlots_contactsAt buf,
    fun before => ⟨_, _, exec_frame_eq_trackFrame hlen { s with slots := before }, trackFrame_report .., rfl, rfl⟩⟩

/-- Settles O13: the report has the table of the frame's ten events. -/
theorem frameEvents : Obligations.FrameEvents := fun buf s hlen =>
  ⟨_, _, exec_frame_eq_trackFrame hlen s, trackFrame_report .., rfl, Vector.length_toList, trackedEvents_contactsAt buf⟩

/-- Settles O14: the slot's three tables, on each of the four rows. -/
theorem frameTransitions : Obligations.FrameTransitions := by
  intro buf s hlen
  refine ⟨_, _, exec_frame_eq_trackFrame hlen s, trackFrame_report .., fun i => ?_⟩
  have htransition := trackedTransitions_contactsAt s.slots buf i
  have hslot := trackedSlots_contactsAt buf i
  have hkind := congrArg SlotEvent.kind (trackedEvents_contactsAt buf i)
  cases hwas : s.slots[i].active <;> cases htouch : touchingAt buf i
  all_goals
    rw [hwas, htouch] at htransition
    rw [slotAt, htouch] at hslot
    rw [kindAt, htouch] at hkind
    exact ⟨htransition, hslot, hkind⟩

/-- Settles O15: both the events and the slots after show which slots are touching, and only a TOUCH frame has a
contact. -/
theorem frameAnyTouching : Obligations.FrameAnyTouching := by
  intro buf s hlen
  refine ⟨_, _, exec_frame_eq_trackFrame hlen s, trackFrame_report .., anyTouchingOf_contactsAt buf, ?_, fun hcls => ?_⟩
  · simp only [trackFrame_slots, trackedSlots_contactsAt, slotAt_active]
    exact anyTouchingOf_contactsAt buf
  · rw [frameReport, contactsAt_of_not_touch hcls]
    exact anyTouchingOf_no_contact

/-! ### What follows of FRAME (rules R107, R109, R110) -/

/-- Settles O23: slot and event are both read from the same bytes. -/
theorem reportIsSnapshot : Obligations.ReportIsSnapshot := by
  intro buf s hlen
  obtain ⟨t, r, ht, hr, -, -, hevent⟩ := frameEvents buf s hlen
  obtain ⟨t', -, ht', -, hslot, -⟩ := frameSlots buf s hlen
  obtain rfl : t = t' := Host.Outcome.next.inj (ht.symm.trans ht')
  refine ⟨t, r, ht, hr, fun i => ?_⟩
  rw [hslot i, hevent i]
  exact ⟨slotAt_active .., kindAt_eq_touching_iff buf i⟩

/-- Settles O24: the first frame leaves a slot active exactly when it touches it, and that activity decides the second
frame's transition. -/
theorem noIdentityAcrossFrames : Obligations.NoIdentityAcrossFrames := by
  intro a b s ha hb
  refine ⟨_, _, _, _, exec_frame_eq_trackFrame ha s, exec_frame_eq_trackFrame hb _, trackFrame_report ..,
    trackFrame_report .., fun i => ?_⟩
  have hfirst := trackedTransitions_contactsAt s.slots a i
  have hsecond := trackedTransitions_contactsAt (trackedSlots (contactsAt a)) b i
  rw [trackedSlots_contactsAt, slotAt_active] at hsecond
  exact ⟨fun hwas hrelease htouch => ⟨hfirst.trans (congrArg₂ transitionOf hwas hrelease),
      hsecond.trans (congrArg₂ transitionOf hrelease htouch)⟩,
    fun htouch htouch' => hsecond.trans (congrArg₂ transitionOf htouch htouch')⟩

/-- Settles O22: from both states FRAME tracks the same contacts. -/
theorem frameForgetsThePast : Obligations.FrameForgetsThePast := fun _ s u hlen =>
  ⟨_, _, _, _, exec_frame_eq_trackFrame hlen s, exec_frame_eq_trackFrame hlen u, rfl, trackFrame_report ..,
    trackFrame_report .., rfl⟩

/-! ### The loop of rule R100 as finger rows (rules R67, R101) -/

/-- The table `v` with the entries of the slots in `l` taken from `w`. -/
def overwrite {α : Type} (l : List SlotIndex) (w v : PerSlot α) : PerSlot α :=
  Vector.ofFn fun j => if j ∈ l then w[j] else v[j]

section
variable {α : Type} {w w' v : PerSlot α}

theorem overwrite_getElem (l : List SlotIndex) (w v : PerSlot α) (j : SlotIndex) :
    (overwrite l w v)[j] = if j ∈ l then w[j] else v[j] :=
  Vector.getElem_ofFn j.isLt

@[simp] theorem overwrite_nil : overwrite [] w v = v :=
  perSlot_ext fun _ => (overwrite_getElem ..).trans (if_neg List.not_mem_nil)

@[simp] theorem overwrite_finRange : overwrite (List.finRange Config.block.nSlots) w v = w :=
  perSlot_ext fun j => (overwrite_getElem ..).trans (if_pos (List.mem_finRange j))

/-- One entry and then the others is all of them. -/
theorem overwrite_set {i : SlotIndex} {l : List SlotIndex} {a : α} (ha : w[i] = a) (hw : ∀ j ∈ l, w'[j] = w[j])
    (hi : i ∉ l) : overwrite l w' (v.set i a) = overwrite (i :: l) w v := by
  refine perSlot_ext fun j => ?_
  rw [overwrite_getElem, overwrite_getElem]
  by_cases hj : j ∈ l
  · rw [if_pos hj, if_pos (List.mem_cons_of_mem i hj), hw j hj]
  · rw [if_neg hj]
    by_cases hji : j = i
    · subst hji
      rw [perSlot_set_self, if_pos List.mem_cons_self, ha]
    · rw [perSlot_set_ne _ hji, if_neg (by simp [hji, hj])]

end

/-- The report under construction with the entries of the slots in `l` filled in. -/
def Report.setEntries (l : List SlotIndex) (slots : PerSlot Slot) (cs : PerSlot (Option Pos)) (q : Report) : Report :=
  { q with
    events := overwrite l (trackedEvents cs) q.events
    anyTouching := anyTouchingOf (overwrite l (trackedEvents cs) q.events)
    transition := overwrite l (trackedTransitions slots cs) q.transition }

/-- The state after the loop of rule R100 has visited the slots in `l`, from the report `q` under construction: what the
finger rows of these slots do (`runRows_fingerRows`). -/
def trackSlots (l : List SlotIndex) (cs : PerSlot (Option Pos)) (q : Report) (s : State) : State :=
  { s with
    slots := overwrite l (trackedSlots cs) s.slots
    report := some (q.setEntries l s.slots cs) }

/-- Visiting one slot does not change the activity another slot's transition starts from (rule R104). -/
theorem trackedTransitions_set_ne (slots : PerSlot Slot) {i j : SlotIndex} (h : j ≠ i) (sl : Slot)
    (cs : PerSlot (Option Pos)) : (trackedTransitions (slots.set i sl) cs)[j] = (trackedTransitions slots cs)[j] := by
  rw [Fin.getElem_fin, trackedTransitions_getElem, Fin.getElem_fin, trackedTransitions_getElem, ← Fin.getElem_fin,
    perSlot_set_ne _ h, Fin.getElem_fin]

/-- One slot and then the others is all of them. -/
theorem trackSlots_trackSlot {i : SlotIndex} {l : List SlotIndex} (hi : i ∉ l) (cs : PerSlot (Option Pos)) (q : Report)
    (s : State) :
    trackSlots l cs (q.setEntry i (EventKind.ofContact cs[i]) (transitionOf s.slots[i].active cs[i].isSome))
      (trackSlot i cs[i] s) = trackSlots (i :: l) cs q s := by
  have hslots : overwrite l (trackedSlots cs) (s.slots.set i (Slot.ofContact cs[i])) = _ :=
    overwrite_set (trackedSlots_getElem cs i i.isLt) (fun _ _ => rfl) hi
  have hevents : overwrite l (trackedEvents cs) (q.events.set i ⟨i, EventKind.ofContact cs[i]⟩) = _ :=
    overwrite_set (trackedEvents_getElem cs i i.isLt) (fun _ _ => rfl) hi
  have htransition : overwrite l (trackedTransitions (s.slots.set i (Slot.ofContact cs[i])) cs)
      (q.transition.set i (transitionOf s.slots[i].active cs[i].isSome)) = _ :=
    overwrite_set (trackedTransitions_getElem s.slots cs i i.isLt)
      (fun j hj => trackedTransitions_set_ne _ (ne_of_mem_of_not_mem hj hi) _ _) hi
  simp only [trackSlots, Report.setEntries, Report.setEntry, trackSlot, hslots, hevents, htransition]

/-- A row that answers a state is followed by the other rows, from that state. -/
theorem runRows_of_next {i : Instr} {is : List Instr} {s t : State} (h : exec i s = .next t) :
    runRows (i :: is) s = runRows is t := by
  simp only [runRows, h]

/-- The contacts of a `TOUCH` frame (rule R67): what its row tracks. -/
def touchContacts (f : TouchFrame) : PerSlot (Option Pos) :=
  Vector.ofFn fun i => contactOf (!isSentinel f.fingers[i].fingerChecksum) f.fingers[i]

/-- A finger row of the frame tracks its slot with the frame's contact there. -/
theorem exec_fingerRow (f : TouchFrame) (i : SlotIndex) (s : State) :
    exec (fingerRow i f.fingers[i]) s = .next (trackSlot i (touchContacts f)[i] s) := by
  have hcontact : (touchContacts f)[i] = contactOf (!isSentinel f.fingers[i].fingerChecksum) f.fingers[i] :=
    Vector.getElem_ofFn i.isLt
  rw [hcontact, fingerRow]
  split
  next hc => rw [hc]; rfl
  next hc => rw [Bool.eq_false_iff.mpr hc]; rfl

/-- The finger rows of distinct slots, one after another, track these slots. -/
theorem runRows_fingerRows (f : TouchFrame) {l : List SlotIndex} (hl : l.Nodup) {q : Report} {s : State}
    (hq : s.report = some q) (hany : q.anyTouching = anyTouchingOf q.events) :
    runRows (l.map fun i => fingerRow i f.fingers[i]) s = .next (trackSlots l (touchContacts f) q s) := by
  induction l generalizing q s with
  | nil =>
    simp only [List.map_nil, runRows, trackSlots, Report.setEntries, overwrite_nil, ← hany, ← hq]
  | cons i l ih =>
    obtain ⟨hi, hl⟩ := List.nodup_cons.mp hl
    rw [List.map_cons, runRows_of_next (exec_fingerRow f i s), ih hl (trackSlot_report_of_some hq) rfl,
      trackSlots_trackSlot hi]

/-- With all ten entries filled in, the blank report is the `TOUCH` frame's. -/
theorem setEntries_blankReport (f : TouchFrame) (slots : PerSlot Slot) (cs : PerSlot (Option Pos)) :
    (blankReport f).setEntries (List.finRange Config.block.nSlots) slots cs = frameReport f .touch true slots cs := by
  rw [Report.setEntries, overwrite_finRange, overwrite_finRange]
  rfl

/-- Settles O38: the rows visit all ten slots, so every entry of the slot file and of the blank report is overwritten
with the one the TOUCH row gives. -/
theorem loopBuildsTheReport : Obligations.LoopBuildsTheReport := fun f s =>
  ⟨_, _, rfl, runRows_fingerRows f (List.nodup_finRange _) rfl rfl, overwrite_finRange,
    congrArg some (setEntries_blankReport f s.slots (touchContacts f))⟩

/-! ### The commands that emit nothing (rules R105, R108) -/

/-- Settles O28: the word on the port decodes to RESET whatever the buffer, and nothing follows the host's command. -/
theorem resetCommand : Obligations.ResetCommand := by
  intro s hp
  have hstep : step s = exec .reset { s with port := [] } := stepRunsTheCommand _ s hp
  exact ⟨hstep.symm, hstep⟩

/-- Settles O32: RESET completes silently, and the two faults raise. -/
theorem noEvents : Obligations.NoEvents :=
  ⟨fun _ => ⟨_, rfl, rfl, rfl, fun i => Vector.getElem_replicate i.isLt⟩,
    fun _ s hlen => ⟨_, execFrame_of_length_ne hlen s, raise_report .., raise_sink .., raise_slots ..⟩,
    fun _ _ => ⟨_, rfl, raise_report .., raise_sink .., raise_slots ..⟩⟩

end Sys2Proof.Machine
end

section
/-! PROOFS. The block's exceptions (rules R120 to R127): the command on the host's port and its one outcome, what a fault writes, and that a FRAME on 53 bytes raises none. -/

namespace Sys2Proof.Machine

/-! ### A fault's STATUS bit (rules R120, R123) -/

/-- The bit goes by the fault's numeric code. -/
theorem CmdFault.statusBit_eq (f : CmdFault) : f.statusBit = if f.code = 1 then 0x01#8 else 0x02#8 := by
  cases f <;> rfl

/-- What is left on the block by raising a fault, read off the outcome port: the fault raised is the outcome, and its
bit is all that STATUS gains. -/
theorem SameBlock.of_raise {f g : CmdFault} {s t : State} (hb : SameBlock (raise g s) t)
    (hf : t.outcome = some (.fault f)) :
    t.slots = s.slots ∧ t.report = none ∧ t.sink = s.sink ∧
      t.status = s.status ||| (if f.code = 1 then 0x01#8 else 0x02#8) := by
  obtain ⟨hslots, hstatus, houtcome, hreport, hsink⟩ := hb
  obtain rfl : g = f := by simpa [houtcome] using hf
  exact ⟨hslots, hreport, hsink, by rw [hstatus, raise_status, CmdFault.statusBit_eq]⟩

/-! ### The command word before the length (rule R124) -/

/-- Every instruction answers a next state: no outcome of a command stops the machine (rule R126). -/
theorem exec_next (i : Instr) (s : State) : ∃ t, exec i s = .next t := by
  cases i with
  | frame buf => simp only [exec, execFrame]; split <;> exact ⟨_, rfl⟩
  | reset | reservedCmd | frameclassTouch | frameclassTouchEmpty | frameclassNodata | fingerActive | fingerEmpty =>
    exact ⟨_, rfl⟩

/-- The host's own command on the port is the whole step. -/
theorem step_of_host_command {c : Byte} {s : State} (hp : s.port = [{ cmd := c, issuer := .host }]) :
    step s = exec (decodeCommand c (Memory.bytes s.buf)) { s with port := [] } :=
  (stepRunsTheCommand _ s hp).trans (afterCommand_host _)

/-- Settles O30: the four things a command can do go by the word first, and only a FRAME looks at the length. -/
theorem faultPrecedence : Obligations.FaultPrecedence := by
  intro c s hp
  obtain ⟨t, ht⟩ := exec_next (decodeCommand c (Memory.bytes s.buf)) { s with port := [] }
  refine ⟨t, (step_of_host_command hp).trans ht, ?_⟩
  obtain ⟨hc, hlen, fr, -, rfl⟩ | ⟨hc, hlen, rfl⟩ | ⟨hc, rfl⟩ | ⟨h1, h2, rfl⟩ := exec_decodeCommand_cases ht
  · simp [hc, hlen, runFrame]
  · simp [hc, hlen]
  · simp [hc]
  · simp [h1, h2]

/-! ### What a faulting command writes (rules R121, R123, R127) -/

/-- Settles O31: of the four things a command can do, a good FRAME and RESET end in ok, and the two faults only raise;
the end of a worker's read cycle leaves the block at that. -/
theorem faultsArePrecise : Obligations.FaultsArePrecise := by
  intro c s t f hp h hf
  obtain ⟨hnil, -⟩ | ⟨c', u, -, hu, hb⟩ := step_block_cases h
  · simp [hp] at hnil
  · obtain ⟨-, -, fr, -, rfl⟩ | ⟨-, -, rfl⟩ | ⟨-, rfl⟩ | ⟨-, -, rfl⟩ := exec_decodeCommand_cases hu
    · simp [hb.outcome, runFrame] at hf
    · exact hb.of_raise hf
    · simp [hb.outcome] at hf
    · exact hb.of_raise hf

/-- Settles O21: FRAME on 53 bytes tracks their contacts and emits the report. -/
theorem wellSizedNeverFaults : Obligations.WellSizedNeverFaults := fun _ s hlen =>
  ⟨_, _, exec_frame_eq_trackFrame hlen s, trackFrame_outcome .., trackFrame_report .., trackFrame_status ..,
    trackFrame_sink ..⟩

/-- Settles O25: the size check fails, and FRAME raises its fault. -/
theorem sizeMismatch : Obligations.SizeMismatch :=
  fun _ s hlen => execFrame_of_length_ne hlen s

end Sys2Proof.Machine
end

section
/-! PROOFS. The host contract (rules R130 to R139): its operations case by case, the events that ask for reads and start them, the end of a read cycle, and the Lifecycle calls. -/

namespace Sys2Proof.Machine

/-! ### The environment leaves the block alone (rules R52, R145) -/

/-- With no command on the port, a step is of the environment or idle, and keeps the block. -/
theorem step_sameBlock {s t : State} (hp : s.port = []) (h : step s = .next t) : SameBlock s t := by
  obtain ⟨-, hb⟩ | ⟨c, u, hc, -⟩ := step_block_cases h
  · exact hb
  · simp [hp] at hc

/-! ### Interrupts (rules R131, R139) -/

/-- The host is not armed before `start()`, and not after `stop()`. -/
theorem armed_eq_false {s : State} (h : s.startCalled = false ∨ s.stopCalled = true) : armed s = false := by
  obtain hstart | hstop := h
  · simp [armed, hstart]
  · simp [armed, hstop]

theorem interrupt_of_armed {s : State} (hstart : s.startCalled = true) (hstop : s.stopCalled = false)
    (hp : s.pending = false) :
    interrupt s = { s with pending := true, dueTime := s.now, pollState := .scheduled } :=
  if_pos (by simp [armed, hstart, hstop, hp])

theorem interrupt_of_pending {s : State} (hp : s.pending = true) : interrupt s = s :=
  if_neg (by simp [hp])

theorem interrupt_of_not_armed {s : State} (h : s.startCalled = false ∨ s.stopCalled = true) : interrupt s = s :=
  if_neg (by simp [armed_eq_false h])

/-- Settles O50: the step is the interrupt, whose three cases these are. -/
theorem interruptRequestsOneRead : Obligations.InterruptRequestsOneRead := by
  intro es s hport he
  have hstep : step s = .next (interrupt { s with events := es }) := step_of_event hport he
  refine ⟨fun hstart hstop hp => ?_, fun _ _ hp => ?_, fun h => ?_⟩
  · exact hstep.trans (congrArg _ (interrupt_of_armed hstart hstop hp))
  · exact hstep.trans (congrArg _ (interrupt_of_pending hp))
  · exact hstep.trans (congrArg _ (interrupt_of_not_armed h))

/-! ### The start of a read cycle (rules R132, R136) -/

theorem startCycle_of_due {s : State} (hp : s.pending = true) (hdue : s.dueTime ≤ s.now) (hexec : s.executing = false) :
    startCycle s = { s with pending := false, executing := true } :=
  if_pos (by simp [hp, hdue, hexec])

theorem startCycle_of_not_due {s : State} (h : s.pending = false ∨ s.now < s.dueTime ∨ s.executing = true) :
    startCycle s = s := by
  refine if_neg ?_
  obtain hp | hdue | hexec := h
  · simp [hp]
  · simp [Nat.not_le.mpr hdue]
  · simp [hexec]

/-- Settles O51: the step is the worker's look, which starts a cycle exactly when a read is due and none executes. -/
theorem workerStartsDueRead : Obligations.WorkerStartsDueRead := by
  intro es s hport he
  have hstep : step s = .next (startCycle { s with events := es }) := step_of_event hport he
  refine ⟨fun hp hdue hexec => ?_, fun h => ?_⟩
  · exact hstep.trans (congrArg _ (startCycle_of_due hp hdue hexec))
  · exact hstep.trans (congrArg _ (startCycle_of_not_due h))

/-! ### The request after a cycle (rules R132 to R134, R136, R139) -/

theorem requestRead_of_open {d : Nat} {s : State} (hstop : s.stopCalled = false) (hp : s.pending = false) :
    requestRead d s = { s with pending := true, dueTime := s.now + d, pollState := .active } :=
  if_pos (by simp [hstop, hp])

theorem requestRead_of_pending {d : Nat} {s : State} (hp : s.pending = true) : requestRead d s = s :=
  if_neg (by simp [hp])

theorem requestRead_of_stopped {d : Nat} {s : State} (hstop : s.stopCalled = true) : requestRead d s = s :=
  if_neg (by simp [hstop])

theorem settle_of_pending {s : State} (hp : s.pending = true) : settle s = s := if_pos hp

theorem settle_of_not_pending {s : State} (hp : s.pending = false) : settle s = { s with pollState := .idle } :=
  if_neg (by simp [hp])

@[simp] theorem settle_pending (s : State) : (settle s).pending = s.pending := by unfold settle; split <;> rfl
@[simp] theorem settle_dueTime (s : State) : (settle s).dueTime = s.dueTime := by unfold settle; split <;> rfl
@[simp] theorem settle_port (s : State) : (settle s).port = s.port := by unfold settle; split <;> rfl
@[simp] theorem settle_pollState (s : State) :
    (settle s).pollState = if s.pending then s.pollState else .idle := by unfold settle; split <;> rfl

@[simp] theorem requestRead_port (d : Nat) (s : State) : (requestRead d s).port = s.port := by
  unfold requestRead; split <;> rfl

/-! ### The end of a read cycle (rules R132, R137) -/

@[simp] theorem completeCycle_executing (s : State) : (completeCycle s).executing = false := by
  unfold completeCycle; split <;> rfl

@[simp] theorem completeCycle_port (s : State) : (completeCycle s).port = s.port := by
  unfold completeCycle
  split
  · rfl
  · split
    · exact requestRead_port ..
    · exact settle_port s
  · exact settle_port s

/-- A fault goes to the integration boundary and stops the host (rule R137). -/
theorem completeCycle_of_fault {f : CmdFault} {s : State} (h : s.outcome = some (.fault f)) :
    completeCycle s = { stopHost s with propagated := some f, executing := false } := by
  rw [completeCycle, h]

/-- The worker's FRAME on the port runs and ends the read cycle in one step (rule R132). -/
theorem step_of_worker_frame {s u : State} (hp : s.port = [{ cmd := 0x01#8, issuer := .worker }])
    (hu : exec (.frame (Memory.bytes s.buf)) { s with port := [] } = .next u) : step s = .next (completeCycle u) := by
  rw [stepRunsTheCommand _ s hp, decodeCommand_frame, hu]
  rfl

/-- Settles O52: the read's event puts FRAME on the port with the bytes read; the FRAME tracks and delivers them, and the
end of its cycle leaves the block at that. -/
theorem readReachesTheSink : Obligations.ReadReachesTheSink := by
  intro bytes es s hport he hexec hlen
  have hread : step s = .next (present [{ cmd := 0x01#8, issuer := .worker }] bytes { s with events := es }) :=
    (step_of_event hport he).trans (if_pos hexec)
  have hstep := step_of_worker_frame (s := present [{ cmd := 0x01#8, issuer := .worker }] bytes { s with events := es })
    rfl (by rw [present_buf, Memory.bytes_ofBytes]; exact exec_frame_eq_trackFrame hlen _)
  refine ⟨_, _, _, hread, hstep, (completeCycle_sameBlock _).report, (completeCycle_sameBlock _).sink,
    completeCycle_executing _, completeCycle_port _, (completeCycle_sameBlock _).status, fun i => ⟨?_, ?_⟩⟩
  · rw [(completeCycle_sameBlock _).slots]
    exact trackedSlots_contactsAt bytes i
  · exact congrArg SlotEvent.kind (trackedEvents_contactsAt bytes i)

/-! ### The request after a frame (rules R132, R134, R136, R139) -/

/-- What the end of a read cycle does to the scheduler after a FRAME on these bytes (`completeCycle_runFrame`). -/
def requestAfter (buf : List Byte) (s : State) : State :=
  if byteAt buf 0 = 0x5A#8 then requestRead 20 s else settle s

theorem completeCycle_runFrame (buf : List Byte) (s : State) :
    completeCycle (runFrame (frameAt buf) s) =
      { requestAfter buf (runFrame (frameAt buf) s) with executing := false } := by
  by_cases h0 : byteAt buf 0 = 0x5A#8
  · simp [completeCycle, runFrame, frameReport, streamContinue, frameAt, requestAfter, h0]
  · simp [completeCycle, runFrame, frameReport, streamContinue, frameAt, requestAfter, h0]

section
variable {buf : List Byte} {s : State}

theorem requestAfter_of_pending (hp : s.pending = true) : requestAfter buf s = s := by
  unfold requestAfter
  split
  · exact requestRead_of_pending hp
  · exact settle_of_pending hp

theorem requestAfter_of_touchPid (hp : s.pending = false) (hstop : s.stopCalled = false)
    (h0 : byteAt buf 0 = 0x5A#8) :
    requestAfter buf s = { s with pending := true, dueTime := s.now + 20, pollState := .active } :=
  (if_pos h0).trans (requestRead_of_open hstop hp)

theorem requestAfter_of_other_pid (hp : s.pending = false) (h0 : byteAt buf 0 ≠ 0x5A#8) :
    requestAfter buf s = { s with pollState := .idle } :=
  (if_neg h0).trans (settle_of_not_pending hp)

theorem requestAfter_pending_of_stopped (hstop : s.stopCalled = true) :
    (requestAfter buf s).pending = s.pending := by
  unfold requestAfter
  split
  · rw [requestRead_of_stopped hstop]
  · exact settle_pending s

end

/-- The worker's FRAME on 53 bytes leaves the scheduler as it was, and the end of its cycle makes the request. -/
theorem step_of_worker_frame_of_length {s : State} (hp : s.port = [{ cmd := 0x01#8, issuer := .worker }])
    (hlen : (Memory.bytes s.buf).length = 53) :
    ∃ u, SameSurroundings { s with port := [] } u ∧
      step s = .next { requestAfter (Memory.bytes s.buf) u with executing := false } := by
  have hframe := exec_frame_of_length hlen { s with port := [] }
  exact ⟨_, exec_sameSurroundings hframe,
    (step_of_worker_frame hp hframe).trans (congrArg _ (completeCycle_runFrame _ _))⟩

/-- Settles O53: the four cases of the request that the end of the cycle makes. -/
theorem cycleEndRequests : Obligations.CycleEndRequests := by
  intro s hp hlen
  obtain ⟨u, hu, hstep⟩ := step_of_worker_frame_of_length hp hlen
  rw [← hu.pending, ← hu.stopCalled, ← hu.dueTime, ← hu.pollState, ← hu.now]
  refine ⟨_, hstep, rfl, fun hpend => ?_, fun hpend hstop h0 => ?_, fun hpend h0 => ?_, fun hpend hstop => ?_⟩
  · rw [requestAfter_of_pending hpend]
    exact ⟨hpend, rfl, rfl⟩
  · rw [requestAfter_of_touchPid hpend hstop h0]
    exact ⟨rfl, rfl, rfl⟩
  · rw [requestAfter_of_other_pid hpend h0]
    exact ⟨hpend, rfl⟩
  · exact (requestAfter_pending_of_stopped hstop).trans hpend

/-- Settles O54: FRAME raises the fault, and the end of its cycle hands it on and stops the host. -/
theorem sizeMismatchStopsTheHost : Obligations.SizeMismatchStopsTheHost := by
  intro s hp hlen
  have hstep := step_of_worker_frame hp (execFrame_of_length_ne hlen _)
  rw [completeCycle_of_fault (raise_outcome ..)] at hstep
  exact ⟨_, hstep, rfl, rfl, rfl, rfl, rfl, rfl⟩

/-- Settles O55: the failed read's event only ends the cycle and counts the failure. -/
theorem transportFailure : Obligations.TransportFailure := by
  intro es s hport he hexec
  have hstep : step s = .next (failCycle { s with events := es }) := (step_of_event hport he).trans (if_pos hexec)
  exact ⟨_, hstep, step_sameBlock hport hstep, (settle_port _).trans hport, rfl, settle_pending _, settle_dueTime _, rfl,
    settle_pollState _⟩

/-! ### The Lifecycle calls (rule R139) -/

/-- Settles O56: each call's event is accepted the first time and refused the second. -/
theorem lifecycleCalls : Obligations.LifecycleCalls := by
  intro es s hport
  refine ⟨fun he hstart => ?_, fun he hstart => ?_, fun he hstop => ?_, fun he hstop => ?_⟩
  · exact (step_of_event hport he).trans (if_neg (by simp [hstart]))
  · exact (step_of_event hport he).trans (if_pos hstart)
  · have hstep : step s = .next (stopHost { s with events := es }) :=
      (step_of_event hport he).trans (if_neg (by simp [hstop]))
    exact ⟨_, hstep, rfl, rfl, rfl, step_sameBlock hport hstep⟩
  · exact (step_of_event hport he).trans (if_pos hstop)

end Sys2Proof.Machine
end

section
/-! PROOFS. Runs of the machine with no command to come (rules R139, R145, R159): an idle machine, and a host that has stopped. -/

namespace Sys2Proof.Machine

/-! ### Runs -/

/-- What every step keeps, every run keeps. -/
theorem run_keeps {P : State → Prop} (hstep : ∀ s t, P s → step s = .next t → P t) {k : Nat} {s t : State} (hs : P s)
    (h : Host.Core.run Sys2Proof.core k s = .next t) : P t := by
  induction k generalizing s with
  | zero => cases h; exact hs
  | succ k ih =>
    cases hu : step s with
    | next u => exact ih (hstep s u hs hu) ((run_of_next hu).symm.trans h)
    | fault f => cases f
    | refused r => rw [run_of_refused hu] at h; cases h

/-! ### An idle machine (rule R145) -/

theorem step_of_idle {s : State} (hp : s.port = []) (he : s.events = []) : step s = .next s := by
  rw [step, hp, he]

/-- Settles O46: the environment keeps the block, and a step with no event to come is idle. -/
theorem idleForever : Obligations.IdleForever := by
  refine ⟨fun s t => step_sameBlock, fun k s hp he => ?_⟩
  induction k with
  | zero => rfl
  | succ k ih => exact (run_of_next (step_of_idle hp he)).trans ih

/-! ### A stopped host (rules R139, R159) -/

/-- The host has stopped for good: `stop()` has returned, and neither a command nor a read is left over. -/
structure Quiet (s : State) : Prop where
  port : s.port = []
  stopCalled : s.stopCalled = true
  executing : s.executing = false
  pending : s.pending = false

theorem Quiet.stopReturned {s : State} (h : Quiet s) : stopReturned s = true := by
  simp [Machine.stopReturned, h.stopCalled, h.executing]

/-- No event of the environment stirs a stopped host: those that could are refused or have no effect. -/
theorem Quiet.hostEvent {e : HostEvent} {s t : State} (h : Quiet s) (ht : hostEvent e s = .next t) : Quiet t := by
  cases e <;> simp only [Machine.hostEvent] at ht
  case issue => rw [if_pos h.stopReturned] at ht; cases ht
  case irq => rw [interrupt_of_not_armed (.inr h.stopCalled)] at ht; cases ht; exact h
  case wait => cases ht; exact { h with }
  case workerStart => rw [startCycle_of_not_due (.inl h.pending)] at ht; cases ht; exact h
  case readOk | readFail => simp [h.executing] at ht
  case start => split at ht <;> cases ht; exact { h with }
  case stop => rw [if_pos h.stopCalled] at ht; cases ht

theorem Quiet.step {s t : State} (h : Quiet s) (ht : step s = .next t) : Quiet t := by
  obtain ⟨-, -, rfl⟩ | ⟨e, es, -, -, he⟩ | ⟨c, u, hc, -⟩ := step_cases ht
  · exact h
  · have hs : Quiet { s with events := es } := { h with }
    exact hs.hostEvent he
  · simp [h.port] at hc

/-- Settles O57: once `stop()` has returned, the invariant leaves no read pending, so the host is quiet and stays so; and
each step of a quiet host keeps the block. -/
theorem quietAfterStop : Obligations.QuietAfterStop := by
  intro k s t hinv hstop hexec hport hrun
  have hquiet : Quiet s := ⟨hport, hstop, hexec, (hinv.host.stopped hstop).1⟩
  obtain ⟨hblock, ht⟩ : SameBlock s t ∧ Quiet t :=
    run_keeps (P := fun u => SameBlock s u ∧ Quiet u)
      (fun _ _ ⟨hb, hq⟩ hu => ⟨hb.trans (step_sameBlock hq.port hu), hq.step hu⟩) ⟨SameBlock.refl s, hquiet⟩ hrun
  exact ⟨hblock, ht.port, ht.stopCalled, ht.executing⟩

end Sys2Proof.Machine
end

section
/-! PROOFS. The state at reset and the overlapping issue (rules R150 to R152, R155): what reset leaves in the block and in the host contract, that it meets the invariant, and that a step refuses more than one command. -/

namespace Sys2Proof.Machine

/-! ### The block at reset (rules R150, R151) -/

theorem reset_slots_getElem (i : SlotIndex) : State.reset.slots[i] = Slot.empty :=
  Vector.getElem_replicate i.isLt

theorem Slot.empty_consistent : Slot.empty.consistent := rfl

/-- What the RESET command leaves in the slot file and in STATUS is what they hold at power-on (rules R108, R150). -/
theorem exec_reset_eq_reset (s : State) :
    exec .reset s = .next (completeSilent { s with slots := State.reset.slots, status := State.reset.status }) := rfl

/-- Settles O27: power-on reset by its fields, and RESET writes those same values and completes silently. -/
theorem resetState : Obligations.ResetState := by
  have hstatus : readStatus State.reset = 0x00#8 := by decide
  exact ⟨reset_slots_getElem, hstatus, rfl, fun s => ⟨_, exec_reset_eq_reset s, rfl, rfl, rfl⟩⟩

theorem BlockInv.reset : BlockInv State.reset :=
  .of_no_report (fun i => by rw [reset_slots_getElem]; exact Slot.empty_consistent) (by decide) rfl Memory.wf_reset

/-! ### The host contract at reset (rule R152) -/

/-- Settles O49: before `start()` the host is not armed, so the interrupt has no effect. -/
theorem hostAtReset : Obligations.HostAtReset :=
  ⟨rfl, rfl, rfl, rfl, interrupt_of_not_armed (.inl rfl)⟩

/-- PollState is Idle, as `idleShown` asks; the other clauses assume a read pending or executing, a call of `stop()` or a
command on the port, and at reset there is none. -/
theorem HostInv.reset : HostInv State.reset where
  pendingShown := by decide
  idleShown _ _ := rfl
  scheduledDue := by decide
  activeDue := by decide
  started := by decide
  stopped := by decide
  workerCommand := by simp [State.reset]

/-- Settles O47: the block's part and the host contract's part. -/
theorem invAtReset : Obligations.InvAtReset := ⟨.reset, .reset⟩

/-! ### An overlapping issue (rule R155) -/

/-- Settles O45: the step looks at the port first, and has no meaning for a second command on it. -/
theorem overlapRefused : Obligations.OverlapRefused := by
  intro c d cs s hp
  rw [step, hp]

end Sys2Proof.Machine
end
